-- ==== Sys2Proof/Word.lean ====
section
/-! DEFINITION. The word types of the machine and their plainest arithmetic (spec/00_scope.md rules R6, R9, R10). -/

namespace Sys2Proof

/-- One byte: a general register, a timer, a memory cell (R6, REGW = 8). -/
abbrev Byte := BitVec 8

/-- A 16-bit instruction word (30_encoding.md R80). -/
abbrev Word := BitVec 16

/-- A 12-bit byte address (R6, ADDRW = 12): the program counter, a stack entry, the field `nnn`. -/
abbrev Addr := BitVec 12

/-- A general register's number, 0 to 15 (10_state.md R20). -/
abbrev Reg := Fin 16

/-- The flag register VF is `V[15]` (R6, FLAGREG). -/
def flagReg : Reg := 15

/-- A flag as the full byte 0 or 1 that is written to VF (44_arithmetic_flags.md R156). -/
def flagByte (b : Bool) : Byte := if b then 1 else 0

end Sys2Proof
end

