-- ==== Sys2Proof/Config.lean ====
section
/-! DEFINITION. The parameters of spec/00_scope.md rules R6 and R7 under the spec's names, and the free values.

A parameter that the spec decides has the spec's value here; one that it leaves OPEN, and every free value, is an
opaque constant without a body, so that no proof can see what it is. -/

namespace Sys2Proof.Config

/-- MEMSIZE (R6): bytes of memory. -/
def memSize : Nat := 4096

/-- STACKDEPTH (R6): call stack levels. -/
def stackDepth : Nat := 16

/-- ENTRY (R7): where the program image is copied and where `pc` starts. DESIGN CHOICE of the spec (decision D6),
a number from general knowledge (log 4). -/
def entry : Nat := 0x200

/-- FONT_BASE (R7): first address of the font table. DESIGN CHOICE of the spec (decision D7; log 4). -/
def fontBase : Nat := 0x000

/-- FONT_BYTES (R7) glyph by glyph, as the table of 10_state.md R36 gives them. PRESUMED: the spec takes them from
general knowledge (log 4). -/
def fontGlyphs : List (List Byte) :=
  [[0xF0, 0x90, 0x90, 0x90, 0xF0], [0x20, 0x60, 0x20, 0x20, 0x70],
   [0xF0, 0x10, 0xF0, 0x80, 0xF0], [0xF0, 0x10, 0xF0, 0x10, 0xF0],
   [0x90, 0x90, 0xF0, 0x10, 0x10], [0xF0, 0x80, 0xF0, 0x10, 0xF0],
   [0xF0, 0x80, 0xF0, 0x90, 0xF0], [0xF0, 0x10, 0x20, 0x40, 0x40]] ++
  [[0xF0, 0x90, 0xF0, 0x90, 0xF0], [0xF0, 0x90, 0xF0, 0x10, 0xF0],
   [0xF0, 0x90, 0xF0, 0x90, 0x90], [0xE0, 0x90, 0xE0, 0x90, 0xE0],
   [0xF0, 0x80, 0x80, 0x80, 0xF0], [0xE0, 0x90, 0x90, 0x90, 0xE0],
   [0xF0, 0x80, 0xF0, 0x80, 0xF0], [0xF0, 0x80, 0xF0, 0x80, 0x80]]

/-- FONT_BYTES (R7): the 80 bytes of the font table, glyph 0 first. -/
def fontBytes : List Byte := fontGlyphs.flatten

/-- GLYPH_BYTES (R6): bytes of one glyph. -/
def glyphBytes : Nat := 5

/-- IW (R7): bits of the index register. DESIGN CHOICE of the spec (decision D9; log 11). -/
abbrev indexWidth : Nat := 16

/-- NOP_WORD (R7): the word that decodes as no-op. DESIGN CHOICE of the spec (decision D3; log 3). -/
def nopWord : Word := 0x0000

/-- HALT_MASK (R7): the mask of the halt template. DESIGN CHOICE of the spec (decision D4; log 3). -/
def haltMask : Word := 0xFFFF

/-- HEADER_LEN (R6): bytes of the trailing program header. -/
def headerLen : Nat := 16

/-- HEADER_SENTINEL_OFF (R6): offset in the header of the two sentinel bytes. -/
def headerSentinelOff : Nat := 0

/-- HEADER_W_OFF (R6): offset in the header of the width byte (decision D26; log 17). -/
def headerWOff : Nat := 6

/-- HEADER_H_OFF (R6): offset in the header of the height byte (decision D26; log 17). -/
def headerHOff : Nat := 7

/-- HEADER_THRESHOLD (R7): only a longer image is inspected for a header. DESIGN CHOICE of the spec (decision D26;
log 17). -/
def headerThreshold : Nat := 16

/-- DEFAULT_W (R6): the display width with no header. -/
def defaultWidth : Byte := 64

/-- DEFAULT_H (R6): the display height with no header. -/
def defaultHeight : Byte := 32

/-- SHIFT_IN_PLACE (R7): a shift works on `V[x]`. DESIGN CHOICE of the spec (decision D12; log 13). -/
def shiftInPlace : Bool := true

/-- BULK_INCLUSIVE (R7): the bulk transfers move `V[x]` too. DESIGN CHOICE of the spec (decision D15; log 14). -/
def bulkInclusive : Bool := true

/-- BULK_ADVANCES_I (R7): whether the bulk transfers move `I`. DESIGN CHOICE of the spec (decision D15; log 14). -/
def bulkAdvancesI : Bool := false

/-- KEYUP_MEANS_UP (R7): skip-if-key-up skips when the key is up. DESIGN CHOICE of the spec (decision D14; log 16). -/
def keyupMeansUp : Bool := true

/-- The values of DRAW_EDGE that the spec gives a meaning. -/
inductive DrawEdge where
  /-- A box that leaves the buffer is a fatal fault (47_display.md R181). -/
  | fault
deriving DecidableEq, Repr

/-- DRAW_EDGE (R7). DESIGN CHOICE of the spec (decision D16; log 15). -/
def drawEdge : DrawEdge := .fault

/-- The values of KEY_PICK that the spec gives a meaning. -/
inductive KeyPick where
  /-- The lowest held index (48_input_timers.md R193). -/
  | lowest
deriving DecidableEq, Repr

/-- KEY_PICK (R7). DESIGN CHOICE of the spec (decision D19; log 16). -/
def keyPick : KeyPick := .lowest

/-- HEADER_SENTINEL (R7), OPEN: the two bytes that mark a header. A free value (log 2). -/
opaque headerSentinel : Byte × Byte

/-- The two registers that receive the geometry at load: decision D26 calls them "two distinct register indices".
The values after `:=` only make the type inhabited; the constant `geomRegs` has none of them. -/
structure GeometryRegisters where
  /-- GEOM_REG_W. -/
  w : Reg := 0
  /-- GEOM_REG_H. -/
  h : Reg := 1
  /-- The two are distinct (D26). -/
  distinct : w ≠ h := by decide
deriving DecidableEq, Repr, Inhabited

/-- GEOM_REG_W and GEOM_REG_H (R7), OPEN. A free value (log 2). -/
opaque geomRegs : GeometryRegisters

/-- GEOM_REG_W (R7), OPEN. -/
def geomRegW : Reg := geomRegs.w

/-- GEOM_REG_H (R7), OPEN. -/
def geomRegH : Reg := geomRegs.h

/-- The byte number `drawn` of a random source seeded with `seed` (45_random.md R160, `draw_byte()`): a free value
(log 1). -/
opaque drawByte (seed drawn : Nat) : Byte

/-- The seed that a Reset takes "from system entropy" (70_reset_and_hazards.md R254), told from one Reset to the next
by what the random source was before it: a free value (log 1). -/
opaque entropySeed (seed drawn : Nat) : Nat

end Sys2Proof.Config
end

