-- ==== Sys2Proof/Syntax.lean ====
section
/-! DEFINITION. The instructions: one constructor for each of the 36 templates of spec/30_encoding.md rule R86 and one
for the UNKNOWN sentinel, with the operand fields its shape uses (R82, R83). SHR and SHL keep the ignored field `y`
(R88), so that every word has its own instruction. -/

namespace Sys2Proof

/-- A decoded instruction (30_encoding.md R85, R86). -/
inductive Instr where
  /-- `00E0`, clear display (R120). -/
  | cls
  /-- `00EE`, return (R121). -/
  | ret
  /-- `0000`, no operation (R205). -/
  | nop
  /-- `FFFF`, halt (R206). -/
  | halt
  /-- `1nnn`, jump (R122). -/
  | jp (nnn : Addr)
  /-- `2nnn`, call (R123). -/
  | call (nnn : Addr)
  /-- `3xkk`, skip if register equals immediate (R130). -/
  | seImm (x : Reg) (kk : Byte)
  /-- `4xkk`, skip if register does not equal immediate (R131). -/
  | sneImm (x : Reg) (kk : Byte)
  /-- `5xy0`, skip if registers equal (R132). -/
  | seReg (x y : Reg)
  /-- `6xkk`, load immediate (R140). -/
  | ldImm (x : Reg) (kk : Byte)
  /-- `7xkk`, add immediate (R141). -/
  | addImm (x : Reg) (kk : Byte)
  /-- `8xy0`, copy register (R142). -/
  | ldReg (x y : Reg)
  /-- `8xy1`, bitwise or (R143). -/
  | orReg (x y : Reg)
  /-- `8xy2`, bitwise and (R144). -/
  | andReg (x y : Reg)
  /-- `8xy3`, bitwise exclusive or (R145). -/
  | xorReg (x y : Reg)
  /-- `8xy4`, add registers (R150). -/
  | addReg (x y : Reg)
  /-- `8xy5`, subtract registers (R151). -/
  | sub (x y : Reg)
  /-- `8xy6`, shift right by one (R153). -/
  | shr (x y : Reg)
  /-- `8xy7`, reverse subtract (R152). -/
  | subn (x y : Reg)
  /-- `8xyE`, shift left by one (R154). -/
  | shl (x y : Reg)
  /-- `9xy0`, skip if registers not equal (R133). -/
  | sneReg (x y : Reg)
  /-- `Annn`, set index register (R165). -/
  | ldI (nnn : Addr)
  /-- `Bnnn`, jump with offset (R124). -/
  | jpV0 (nnn : Addr)
  /-- `Cxkk`, random byte (R161). -/
  | rnd (x : Reg) (kk : Byte)
  /-- `Dxyn`, draw an n-row sprite (R180). -/
  | drw (x y : Reg) (n : Fin 16)
  /-- `Ex9E`, skip if key down (R190). -/
  | skp (x : Reg)
  /-- `ExA1`, skip if key up (R191). -/
  | sknp (x : Reg)
  /-- `Fx07`, read delay timer (R194). -/
  | ldVxDt (x : Reg)
  /-- `Fx0A`, wait for key (R192). -/
  | ldK (x : Reg)
  /-- `Fx15`, write delay timer (R195). -/
  | ldDt (x : Reg)
  /-- `Fx18`, write sound timer (R196). -/
  | ldSt (x : Reg)
  /-- `Fx1E`, add register into index register (R166). -/
  | addI (x : Reg)
  /-- `Fx29`, sprite glyph address (R167). -/
  | ldF (x : Reg)
  /-- `Fx33`, binary-coded decimal (R168). -/
  | ldB (x : Reg)
  /-- `Fx55`, bulk store (R169). -/
  | stRegs (x : Reg)
  /-- `Fx65`, bulk load (R170). -/
  | ldRegs (x : Reg)
  /-- Any word that matches no template, carried whole (R88, R207). -/
  | unknown (raw : Word)
deriving DecidableEq, Repr

end Sys2Proof
end

