-- ==== Sys2Proof/WellFormed.lean ====
section
/-! DEFINITION. Which terms of `Instr` are instructions of the machine. Every operand field takes every value of its
type (spec/30_encoding.md R82), so the one check is on the word that UNKNOWN carries. -/

namespace Sys2Proof

/-- The 21,580 words of 30_encoding.md R88, range by range as its table lists them. It is written from R88 and not
from the catalog of R86. -/
def isUnknownWord (w : Word) : Bool :=
  let n0 := w.toNat % 16
  let kk := w.toNat % 256
  match w.toNat / 4096 with
  | 0x0 => w != 0x0000 && w != 0x00E0 && w != 0x00EE
  | 0x5 => n0 != 0
  | 0x8 => [0x8, 0x9, 0xA, 0xB, 0xC, 0xD, 0xF].contains n0
  | 0x9 => n0 != 0
  | 0xE => !([0x9E, 0xA1].contains kk)
  | 0xF => !([0x07, 0x0A, 0x15, 0x18, 0x1E, 0x29, 0x33, 0x55, 0x65].contains kk) && w != 0xFFFF
  | _ => false

/-- A term is well formed when it is the decoding of some word: UNKNOWN carries a word of R88, and every other
instruction takes all values of its fields. -/
def Instr.wellFormed : Instr → Bool
  | .cls | .ret | .nop | .halt => true
  | .jp _ | .call _ | .ldI _ | .jpV0 _ => true
  | .seImm _ _ | .sneImm _ _ | .ldImm _ _ | .addImm _ _ | .rnd _ _ => true
  | .seReg _ _ | .sneReg _ _ | .ldReg _ _ | .orReg _ _ | .andReg _ _ | .xorReg _ _ => true
  | .addReg _ _ | .sub _ _ | .subn _ _ | .shr _ _ | .shl _ _ => true
  | .drw _ _ _ => true
  | .skp _ | .sknp _ | .ldVxDt _ | .ldK _ | .ldDt _ | .ldSt _ => true
  | .addI _ | .ldF _ | .ldB _ | .stRegs _ | .ldRegs _ => true
  | .unknown raw => isUnknownWord raw

end Sys2Proof
end

