-- ==== Sys2Proof/Decode.lean ====
section
/-! DEFINITION. The decoder and, after it, the encoder (spec/30_encoding.md R80 to R88). -/

namespace Sys2Proof

/-- The operand shapes of R83. -/
inductive Shape where
  /-- No operand. -/
  | none
  /-- One register. -/
  | x
  /-- Two registers. -/
  | xy
  /-- Register and immediate byte. -/
  | xkk
  /-- 12-bit address (the source's "register+12-bit address": 90_conflicts.md C5). -/
  | a
  /-- Register, register, nibble. -/
  | xyn
deriving DecidableEq, Repr

/-- The five operand fields of a word (R82), each an unsigned number as it stands in the word. -/
structure Fields where
  x : Reg
  y : Reg
  kk : Byte
  nnn : Addr
  n : Fin 16
deriving DecidableEq, Repr

/-- Bits `lo+3 .. lo` of a word as a number. -/
def nibbleField (w : Word) (lo : Nat) : Fin 16 := (w.extractLsb' lo 4).toFin

/-- Field extraction (R82): x = bits 11..8, y = bits 7..4, kk = bits 7..0, nnn = bits 11..0, n = bits 3..0. -/
def fieldsOf (w : Word) : Fields :=
  { x := nibbleField w 8, y := nibbleField w 4, kk := w.extractLsb' 0 8, nnn := w.extractLsb' 0 12,
    n := nibbleField w 0 }

/-- An instruction template (R84). `build` is the instruction made of the fields that the shape uses. -/
structure Template where
  mnemonic : String
  pattern : Word
  mask : Word
  shape : Shape
  build : Fields → Instr

/-- A word matches a template when `(w & mask) == pattern` (R84). -/
def Template.accepts (t : Template) (w : Word) : Bool := w &&& t.mask == t.pattern

/-- Rows 1 to 18 of the catalog of R86. Its encodings are the spec's, from general knowledge (decision D2): PRESUMED
(log 3). -/
def catalogFirst : List Template :=
  [⟨"CLS", 0x00E0, 0xFFFF, .none, fun _ => .cls⟩,
   ⟨"RET", 0x00EE, 0xFFFF, .none, fun _ => .ret⟩,
   ⟨"NOP", Config.nopWord, 0xFFFF, .none, fun _ => .nop⟩,
   ⟨"HALT", 0xFFFF, Config.haltMask, .none, fun _ => .halt⟩,
   ⟨"JP", 0x1000, 0xF000, .a, fun f => .jp f.nnn⟩,
   ⟨"CALL", 0x2000, 0xF000, .a, fun f => .call f.nnn⟩,
   ⟨"SE_IMM", 0x3000, 0xF000, .xkk, fun f => .seImm f.x f.kk⟩,
   ⟨"SNE_IMM", 0x4000, 0xF000, .xkk, fun f => .sneImm f.x f.kk⟩,
   ⟨"SE_REG", 0x5000, 0xF00F, .xy, fun f => .seReg f.x f.y⟩,
   ⟨"LD_IMM", 0x6000, 0xF000, .xkk, fun f => .ldImm f.x f.kk⟩,
   ⟨"ADD_IMM", 0x7000, 0xF000, .xkk, fun f => .addImm f.x f.kk⟩,
   ⟨"LD_REG", 0x8000, 0xF00F, .xy, fun f => .ldReg f.x f.y⟩,
   ⟨"OR", 0x8001, 0xF00F, .xy, fun f => .orReg f.x f.y⟩,
   ⟨"AND", 0x8002, 0xF00F, .xy, fun f => .andReg f.x f.y⟩,
   ⟨"XOR", 0x8003, 0xF00F, .xy, fun f => .xorReg f.x f.y⟩,
   ⟨"ADD_REG", 0x8004, 0xF00F, .xy, fun f => .addReg f.x f.y⟩,
   ⟨"SUB", 0x8005, 0xF00F, .xy, fun f => .sub f.x f.y⟩,
   ⟨"SHR", 0x8006, 0xF00F, .xy, fun f => .shr f.x f.y⟩]

/-- Rows 19 to 36 of the catalog of R86. -/
def catalogSecond : List Template :=
  [⟨"SUBN", 0x8007, 0xF00F, .xy, fun f => .subn f.x f.y⟩,
   ⟨"SHL", 0x800E, 0xF00F, .xy, fun f => .shl f.x f.y⟩,
   ⟨"SNE_REG", 0x9000, 0xF00F, .xy, fun f => .sneReg f.x f.y⟩,
   ⟨"LD_I", 0xA000, 0xF000, .a, fun f => .ldI f.nnn⟩,
   ⟨"JP_V0", 0xB000, 0xF000, .a, fun f => .jpV0 f.nnn⟩,
   ⟨"RND", 0xC000, 0xF000, .xkk, fun f => .rnd f.x f.kk⟩,
   ⟨"DRW", 0xD000, 0xF000, .xyn, fun f => .drw f.x f.y f.n⟩,
   ⟨"SKP", 0xE09E, 0xF0FF, .x, fun f => .skp f.x⟩,
   ⟨"SKNP", 0xE0A1, 0xF0FF, .x, fun f => .sknp f.x⟩,
   ⟨"LD_VX_DT", 0xF007, 0xF0FF, .x, fun f => .ldVxDt f.x⟩,
   ⟨"LD_K", 0xF00A, 0xF0FF, .x, fun f => .ldK f.x⟩,
   ⟨"LD_DT", 0xF015, 0xF0FF, .x, fun f => .ldDt f.x⟩,
   ⟨"LD_ST", 0xF018, 0xF0FF, .x, fun f => .ldSt f.x⟩,
   ⟨"ADD_I", 0xF01E, 0xF0FF, .x, fun f => .addI f.x⟩,
   ⟨"LD_F", 0xF029, 0xF0FF, .x, fun f => .ldF f.x⟩,
   ⟨"LD_B", 0xF033, 0xF0FF, .x, fun f => .ldB f.x⟩,
   ⟨"ST_REGS", 0xF055, 0xF0FF, .x, fun f => .stRegs f.x⟩,
   ⟨"LD_REGS", 0xF065, 0xF0FF, .x, fun f => .ldRegs f.x⟩]

/-- The catalog of R86, in its order. -/
def catalog : List Template := catalogFirst ++ catalogSecond

/-- The decoder of R85: the first template that accepts the word, else the UNKNOWN sentinel with the raw word. It is
total on the 16-bit words. -/
def decode (w : Word) : Instr :=
  match catalog.find? (·.accepts w) with
  | some t => t.build (fieldsOf w)
  | none => .unknown w

/-- Why a list of bytes holds no instruction. -/
inductive DecodeRefusal where
  /-- Fewer than the two bytes of an instruction (R80) are there. Raised by `decodeBytes`; safe. -/
  | truncated
deriving DecidableEq, Repr

/-- A word from its two bytes, the byte at the lower address first (20_memory.md R61, big-endian). -/
def wordOfBytes (hi lo : Byte) : Word := hi ++ lo

/-- The two bytes of a word as they lie in memory, lower address first (R61). -/
def bytesOfWord (w : Word) : List Byte := [w.extractLsb' 8 8, w.extractLsb' 0 8]

/-- The decoder on bytes: the instruction and the bytes after it, or the refusal by name. -/
def decodeBytes : List Byte → Except DecodeRefusal (Instr × List Byte)
  | hi :: lo :: rest => .ok (decode (wordOfBytes hi lo), rest)
  | [] | [_] => .error .truncated

/-- A number below 16 as the four bits of a field. -/
def nibbleBits (x : Fin 16) : BitVec 4 := BitVec.ofFin x

/-- `Mnnn`. -/
def encodeA (major : BitVec 4) (nnn : Addr) : Word := major ++ nnn

/-- `Mxkk`. -/
def encodeXKK (major : BitVec 4) (x : Reg) (kk : Byte) : Word := major ++ (nibbleBits x ++ kk)

/-- `Mxyn`, the last nibble an operand or fixed. -/
def encodeXYN (major : BitVec 4) (x y : Reg) (n : BitVec 4) : Word :=
  major ++ (nibbleBits x ++ (nibbleBits y ++ n))

/-- The encoder: the word of an instruction, from the column "enc" of R86. -/
def encode : Instr → Word
  | .cls => 0x00E0
  | .ret => 0x00EE
  | .nop => 0x0000
  | .halt => 0xFFFF
  | .jp nnn => encodeA 0x1 nnn
  | .call nnn => encodeA 0x2 nnn
  | .seImm x kk => encodeXKK 0x3 x kk
  | .sneImm x kk => encodeXKK 0x4 x kk
  | .seReg x y => encodeXYN 0x5 x y 0x0
  | .ldImm x kk => encodeXKK 0x6 x kk
  | .addImm x kk => encodeXKK 0x7 x kk
  | .ldReg x y => encodeXYN 0x8 x y 0x0
  | .orReg x y => encodeXYN 0x8 x y 0x1
  | .andReg x y => encodeXYN 0x8 x y 0x2
  | .xorReg x y => encodeXYN 0x8 x y 0x3
  | .addReg x y => encodeXYN 0x8 x y 0x4
  | .sub x y => encodeXYN 0x8 x y 0x5
  | .shr x y => encodeXYN 0x8 x y 0x6
  | .subn x y => encodeXYN 0x8 x y 0x7
  | .shl x y => encodeXYN 0x8 x y 0xE
  | .sneReg x y => encodeXYN 0x9 x y 0x0
  | .ldI nnn => encodeA 0xA nnn
  | .jpV0 nnn => encodeA 0xB nnn
  | .rnd x kk => encodeXKK 0xC x kk
  | .drw x y n => encodeXYN 0xD x y (nibbleBits n)
  | .skp x => encodeXKK 0xE x 0x9E
  | .sknp x => encodeXKK 0xE x 0xA1
  | .ldVxDt x => encodeXKK 0xF x 0x07
  | .ldK x => encodeXKK 0xF x 0x0A
  | .ldDt x => encodeXKK 0xF x 0x15
  | .ldSt x => encodeXKK 0xF x 0x18
  | .addI x => encodeXKK 0xF x 0x1E
  | .ldF x => encodeXKK 0xF x 0x29
  | .ldB x => encodeXKK 0xF x 0x33
  | .stRegs x => encodeXKK 0xF x 0x55
  | .ldRegs x => encodeXKK 0xF x 0x65
  | .unknown raw => raw

/-- The word whose bits, numbered as spec/opcode_table.json numbers them, are the low `nbits` bits of `w`. Bits above
`nbits` are 0. -/
def tableWord (nbits w : Nat) : Word := BitVec.ofNat 16 (w % 2 ^ nbits)

/-- What the decoder reads from an instruction whose bits are `w` in the opcode table's numbering. -/
def decodeTableWord (nbits w : Nat) : Option Instr :=
  match decodeBytes (bytesOfWord (tableWord nbits w)) with
  | .ok (i, _) => some i
  | .error _ => none

end Sys2Proof
end

