-- ==== Sys2Proof/Machine/State.lean ====
section
/-! DEFINITION. The state of the machine, its faults and refusals, and the state after reset (spec/10_state.md;
spec/60_exceptions.md R216, R217, R222). -/

namespace Sys2Proof.Machine

/-- The fatal faults of 60_exceptions.md R216, with what each records. The spec names every one (decision D23, log 10);
a run that ends in one is over, so each is safe. -/
inductive Fault where
  /-- F1. Raised by LD_B, ST_REGS, LD_REGS, DRW, by a fetch at 4095 (in no reachable state), and by Load for an image
  that does not fit: the lowest effective address above 4095. Safe. -/
  | memoryRange (addr : Nat)
  /-- F2. Raised by CALL with `sp = 16`. Safe. -/
  | stackOverflow
  /-- F3. Raised by RET with `sp = 0`. Safe. -/
  | stackUnderflow
  /-- F4. Raised by every executor that writes `pc`: the rejected value, odd or above 4094. Safe. -/
  | pcRange (t : Nat)
  /-- F5. Raised by DRW: a sprite box not wholly inside the buffer. Safe. -/
  | displayRange (px py n : Nat)
  /-- F6. Raised by SKP and SKNP: a key index above 15. Safe. -/
  | keyRange (k : Nat)
deriving DecidableEq, Repr

/-- Requests that the machine refuses, leaving the state unchanged. -/
inductive Refusal where
  /-- An instruction that has no meaning in the model. Raised by no arm: every instruction has its meaning. Safe. -/
  | notModelled (mnemonic : String)
  /-- A Cycle request when `quit` or `halted` is true (60_exceptions.md R222). Raised by `step`. Safe: the spec's own. -/
  | terminalMachine
  /-- A Cycle request when a fault is recorded (R217). Raised by `step`. Safe: the spec's own. -/
  | deadMachine
  /-- A Load that is not the first since Reset, or comes after a Cycle: "this spec gives it no transition"
  (70_reset_and_hazards.md R256). Raised by `load`. Safe (log 9). -/
  | loadNotEnabled
deriving DecidableEq, Repr

/-- The memory: the cells that differ from the reset contents, addresses strictly rising (10_state.md R35; log 7). -/
abbrev Memory := List Host.Cell

/-- The pixel buffer: the cells that are set, as (column, row), in rising order of row and then column (10_state.md
R37; log 8). -/
abbrev Pixels := List (Nat × Nat)

/-- The per-machine random source (10_state.md R38). The spec does not give its state; these two numbers only say
which free byte comes next (log 1). -/
structure RandomSource where
  /-- Which sequence of bytes the source yields. -/
  seed : Nat
  /-- How many bytes have been drawn. -/
  drawn : Nat
deriving DecidableEq, Repr

/-- Everything the spec gives the machine, under the spec's names. -/
structure State where
  /-- General registers (R20); `V[15]` is VF (R22). -/
  V : Vector Byte 16
  /-- Program counter (R23). -/
  pc : Addr
  /-- Index register (R24). -/
  I : BitVec Config.indexWidth
  /-- Stack pointer, the number of return addresses on the stack (R25). -/
  sp : Fin 17
  /-- Call stack (R26). -/
  stack : Vector Addr 16
  /-- Memory (R35). -/
  mem : Memory
  /-- Pixel buffer (R37). -/
  gfx : Pixels
  /-- Display width in cells (R34). -/
  width : Byte
  /-- Display height in cells (R34). -/
  height : Byte
  /-- Delay timer (R28). -/
  DT : Byte
  /-- Sound timer (R29). -/
  ST : Byte
  /-- Keypad snapshot (R27). -/
  keys : Vector Bool 16
  /-- Key-wait flag (R30). -/
  blocking : Bool
  /-- The register that the pending key goes to (R31, `block_target`). -/
  blockTarget : Reg
  /-- Draw-dirty flag (R32). -/
  draw : Bool
  /-- Fatal-stop flag (R33). -/
  quit : Bool
  /-- Clean-stop flag (R33). -/
  halted : Bool
  /-- Random source (R38). -/
  rng : RandomSource
  /-- The recorded fatal fault (R39). -/
  fault : Option Fault
  /-- Whether a Load may still come (70_reset_and_hazards.md R256; log 9). -/
  loadEnabled : Bool
deriving DecidableEq, Repr

/-- The machine right after reset: the table of 10_state.md R41. The memory lists nothing, so it reads as the font table
and zero elsewhere. The random source's two numbers are a DESIGN CHOICE (log 1). -/
def State.reset : State :=
  { V := Vector.replicate 16 0
    pc := BitVec.ofNat 12 Config.entry
    I := 0
    sp := 0
    stack := Vector.replicate 16 0
    mem := []
    gfx := []
    width := Config.defaultWidth
    height := Config.defaultHeight
    DT := 0
    ST := 0
    keys := Vector.replicate 16 false
    blocking := false
    blockTarget := 0
    draw := false
    quit := false
    halted := false
    rng := { seed := 0, drawn := 0 }
    fault := none
    loadEnabled := true }

/-- What an instruction's execution answers. -/
abbrev Result := Host.Outcome State Fault Refusal

end Sys2Proof.Machine
end

