-- ==== Sys2Proof/Machine/Ops.lean ====
section
/-! DEFINITION. The operations that the meanings share: raising a fault, memory, the program counter, the call stack,
the pixel buffer, the keypad, the random byte (spec/00_scope.md R10; 20_memory.md R60 to R66; 40_pipeline.md R104). -/

namespace Sys2Proof.Machine

/-- `raise F(info)` (00_scope.md R10, 60_exceptions.md R215): the Cycle ends in the fatal fault and has no successor
state. It is the machine's whole way of taking an exception: nothing is saved and no handler is entered (R224). -/
def raise (f : Fault) : Result := .fault f

/-- Go on with the value of a checked access, or raise the fault it met. -/
def orRaise {α : Type} (e : Except Fault α) (k : α → Result) : Result :=
  match e with
  | .ok a => k a
  | .error f => raise f

/-! ## Field updates: one for each field of State -/

/-- The state with another `V`. -/
def State.withV (s : State) (v : Vector Byte 16) : State := { s with V := v }

/-- The state with another `pc`. -/
def State.withPc (s : State) (v : Addr) : State := { s with pc := v }

/-- The state with another `I`. -/
def State.withI (s : State) (v : BitVec Config.indexWidth) : State := { s with I := v }

/-- The state with another `sp`. -/
def State.withSp (s : State) (v : Fin 17) : State := { s with sp := v }

/-- The state with another `stack`. -/
def State.withStack (s : State) (v : Vector Addr 16) : State := { s with stack := v }

/-- The state with another `mem`. -/
def State.withMem (s : State) (v : Memory) : State := { s with mem := v }

/-- The state with another `gfx`. -/
def State.withGfx (s : State) (v : Pixels) : State := { s with gfx := v }

/-- The state with another `width`. -/
def State.withWidth (s : State) (v : Byte) : State := { s with width := v }

/-- The state with another `height`. -/
def State.withHeight (s : State) (v : Byte) : State := { s with height := v }

/-- The state with another `DT`. -/
def State.withDT (s : State) (v : Byte) : State := { s with DT := v }

/-- The state with another `ST`. -/
def State.withST (s : State) (v : Byte) : State := { s with ST := v }

/-- The state with another `keys`. -/
def State.withKeys (s : State) (v : Vector Bool 16) : State := { s with keys := v }

/-- The state with another `blocking`. -/
def State.withBlocking (s : State) (v : Bool) : State := { s with blocking := v }

/-- The state with another `blockTarget`. -/
def State.withBlockTarget (s : State) (v : Reg) : State := { s with blockTarget := v }

/-- The state with another `draw`. -/
def State.withDraw (s : State) (v : Bool) : State := { s with draw := v }

/-- The state with another `quit`. -/
def State.withQuit (s : State) (v : Bool) : State := { s with quit := v }

/-- The state with another `halted`. -/
def State.withHalted (s : State) (v : Bool) : State := { s with halted := v }

/-- The state with another `rng`. -/
def State.withRng (s : State) (v : RandomSource) : State := { s with rng := v }

/-- The state with another `fault`. -/
def State.withFault (s : State) (v : Option Fault) : State := { s with fault := v }

/-- The state with another `loadEnabled`. -/
def State.withLoadEnabled (s : State) (v : Bool) : State := { s with loadEnabled := v }

/-! ## Memory -/

/-- What an address that the memory does not list reads as: the reset contents of 10_state.md R41, the font table at
FONT_BASE (R36) and 0 elsewhere (log 7). -/
def Memory.unlisted (a : Nat) : Byte :=
  if Config.fontBase ≤ a then Config.fontBytes.getD (a - Config.fontBase) 0 else 0

/-- The canonical form: addresses strictly rising, each below 4096, and no entry equal to what an unlisted address
reads as. -/
abbrev Memory.wf (m : Memory) : Prop :=
  m.Pairwise (fun c d => c.1 < d.1) ∧ ∀ c ∈ m, c.1 < Config.memSize ∧ c.2 ≠ Memory.unlisted c.1

/-- The byte at an address. -/
def Memory.read : Memory → Nat → Byte
  | [], a => Memory.unlisted a
  | (k, b) :: rest, a => if a = k then b else Memory.read rest a

/-- An entry in front of a list of higher addresses, left out when it equals what the address reads as unlisted. -/
def Memory.entry (a : Nat) (b : Byte) (rest : Memory) : Memory :=
  if b = Memory.unlisted a then rest else (a, b) :: rest

/-- `mem` with the byte at `a` replaced, in canonical form. -/
def Memory.insert (a : Nat) (b : Byte) : Memory → Memory
  | [] => Memory.entry a b []
  | (k, c) :: rest =>
    if a < k then Memory.entry a b ((k, c) :: rest)
    else if a = k then Memory.entry a b rest
    else (k, c) :: Memory.insert a b rest

/-- `mem[a] <- b` for an address of the memory; there is no cell at 4096 or above (20_memory.md R60). -/
def Memory.write (m : Memory) (a : Nat) (b : Byte) : Memory :=
  if a < Config.memSize then Memory.insert a b m else m

/-- The `n` bytes from `a` on, ascending. -/
def Memory.readBytes (m : Memory) (a n : Nat) : List Byte := (List.range n).map fun k => m.read (a + k)

/-- The bytes written from `a` on, ascending. -/
def Memory.writeBytes (m : Memory) : Nat → List Byte → Memory
  | _, [] => m
  | a, b :: bs => Memory.writeBytes (m.write a b) (a + 1) bs

/-- Whether some of the `n` effective addresses from `a` on is above 4095, the sums taken in unbounded integers
(20_memory.md R63, 46_memory_indexed.md R171). -/
def outOfRange (a n : Nat) : Bool := decide (0 < n ∧ Config.memSize ≤ a + n - 1)

/-- The fault for such an access: it records the lowest address above 4095 (R63, R64). -/
def rangeFault (a : Nat) : Fault := .memoryRange (max a Config.memSize)

/-- `MemRead` (R64): the `n` bytes from `a` on, all checked before any is read. -/
def memRead (a n : Nat) (s : State) : Except Fault (List Byte) :=
  if outOfRange a n then .error (rangeFault a) else .ok (s.mem.readBytes a n)

/-- `MemWrite` (R65), for a run of bytes from `a` on, all checked before any is written (R63). -/
def memWrite (a : Nat) (bs : List Byte) (s : State) : Except Fault State :=
  if outOfRange a bs.length then .error (rangeFault a)
  else .ok (s.withMem (s.mem.writeBytes a bs))

/-- Fetch (40_pipeline.md R105): the big-endian word at `pc`. It changes no state and does not move `pc`. -/
def fetch (s : State) : Except Fault Word :=
  (memRead s.pc.toNat 2 s).map fun bs => wordOfBytes (bs.getD 0 0) (bs.getD 1 0)

/-- `s` with a word stored where the next instruction is fetched. -/
def storeAtPc (w : Word) (s : State) : State :=
  s.withMem (s.mem.writeBytes s.pc.toNat (bytesOfWord w))

/-! ## Program counter -/

/-- The values that a write of `pc` rejects (40_pipeline.md R104): odd, or above 4094. -/
def pcRejects (t : Nat) : Bool := decide (t % 2 = 1 ∨ 4094 < t)

/-- `pc <- t` (R104): `t` is an unbounded number, checked and not reduced. -/
def setPc (t : Nat) (s : State) : Result :=
  if pcRejects t then raise (.pcRange t) else .next (s.withPc (BitVec.ofNat 12 t))

/-- `Advance(k)` (00_scope.md R10). -/
def advance (k : Nat) (s : State) : Result := setPc (s.pc.toNat + k) s

/-- A conditional skip (42_conditional_skip.md): advance by 4 when the condition holds, else by 2. -/
def skipIf (c : Bool) (s : State) : Result := if c then advance 4 s else advance 2 s

/-! ## Call stack -/

/-- `stack[k]`. -/
def State.stackEntry (s : State) (k : Fin 16) : Addr := s.stack[k.val]

/-- The slot that a push fills: `sp` as an index, for `sp` below 16 (10_state.md R25). -/
def State.pushSlot (s : State) : Fin 16 := Fin.ofNat 16 s.sp.val

/-- The slot that a pop reads: `sp - 1` as an index, for `sp` above 0. -/
def State.popSlot (s : State) : Fin 16 := Fin.ofNat 16 (s.sp.val - 1)

/-- `stack[sp] <- r; sp <- sp + 1` for `sp` below 16 (41_control_flow.md R123). -/
def pushReturn (r : Addr) (s : State) : State :=
  (s.withStack (s.stack.set s.pushSlot.val r)).withSp (Fin.ofNat 17 (s.sp.val + 1))

/-- `sp <- sp - 1` for `sp` above 0; the popped entry stays in the stack (R121). -/
def popReturn (s : State) : State := s.withSp (Fin.ofNat 17 (s.sp.val - 1))

/-! ## Pixel buffer -/

/-- The order of the set cells in the list: by row, then by column. -/
def Pixels.before (p q : Nat × Nat) : Bool := decide (p.2 < q.2 ∨ (p.2 = q.2 ∧ p.1 < q.1))

/-- The canonical form at a geometry: cells in strictly rising order, each inside `width × height`. -/
abbrev Pixels.wf (g : Pixels) (width height : Nat) : Prop :=
  g.Pairwise (fun p q => Pixels.before p q = true) ∧ ∀ p ∈ g, p.1 < width ∧ p.2 < height

/-- `gfx[cx, cy]` (10_state.md R37). A column and a row are two numbers, so no column spills into the next row
(decision D32, log 8). -/
def Pixels.get (g : Pixels) (cx cy : Nat) : Bool := g.contains (cx, cy)

/-- `gfx[cx, cy] <- gfx[cx, cy] ^ 1`, in canonical form. -/
def Pixels.toggle (p : Nat × Nat) : Pixels → Pixels
  | [] => [p]
  | q :: rest =>
    if p = q then rest
    else if Pixels.before p q then p :: q :: rest
    else q :: Pixels.toggle p rest

/-- Every cell 0, at any geometry. -/
def Pixels.clear : Pixels := []

/-- One cell of DRW's loop (47_display.md R180): a set cell is a hit, and the cell is toggled. -/
def Pixels.draw (acc : Pixels × Bool) (p : Nat × Nat) : Pixels × Bool :=
  (acc.1.toggle p, acc.2 || acc.1.get p.1 p.2)

/-- The cells that one row byte toggles, left to right: column offset `c` takes bit `7 - c` (R182). -/
def rowCells (px cy : Nat) (b : Byte) : List (Nat × Nat) :=
  ((List.range 8).filter fun c => b.getLsbD (7 - c)).map fun c => (px + c, cy)

/-- The cells that a sprite toggles, in the order of R180: rows from `py` down, one byte each. -/
def spriteCells (px : Nat) : Nat → List Byte → List (Nat × Nat)
  | _, [] => []
  | cy, b :: bs => rowCells px cy b ++ spriteCells px (cy + 1) bs

/-- The buffer after the sprite, and whether a set cell was unset (R180, R183). -/
def drawSprite (px py : Nat) (rows : List Byte) (g : Pixels) : Pixels × Bool :=
  (spriteCells px py rows).foldl Pixels.draw (g, false)

/-- Whether a sprite's box is not wholly inside the buffer (R181): the columns `px .. px+7` and the rows
`py .. py+n-1`, every cell of it counted, none for `n = 0`. -/
def boxOutside (px py n : Nat) (s : State) : Bool :=
  decide (0 < n ∧ (s.width.toNat ≤ px + 7 ∨ s.height.toNat ≤ py + n - 1))

/-- The range check of R181 under DRAW_EDGE. -/
def boxCheck (edge : Config.DrawEdge) (px py n : Nat) (s : State) : Except Fault Unit :=
  match edge with
  | .fault => if boxOutside px py n s then .error (.displayRange px py n) else .ok ()

/-! ## Keypad, timers, random byte -/

/-- `keys[k]`; `k` is checked against 15 before (48_input_timers.md R197). -/
def State.keyDown (s : State) (k : Nat) : Bool := (s.keys[k]?).getD false

/-- The key index check of R197: the whole value of `V[x]`, not masked. -/
def keyIndex (v : Byte) : Except Fault Nat :=
  if 15 < v.toNat then .error (.keyRange v.toNat) else .ok v.toNat

/-- The held key that completes a key-wait (R193) under KEY_PICK: the lowest held index. -/
def pickKey (p : Config.KeyPick) (s : State) : Option (Fin 16) :=
  match p with
  | .lowest => (List.finRange 16).find? fun k => s.keyDown k.val

/-- One step of a timer towards zero, where it stays (60_exceptions.md R237). -/
def countDown (t : Byte) : Byte := if 0 < t.toNat then t - 1 else t

/-- `draw_byte()` (45_random.md R160): the next free byte. -/
def State.nextByte (s : State) : Byte := Config.drawByte s.rng.seed s.rng.drawn

/-- The draw is consumed (R160). -/
def consumeByte (s : State) : State := s.withRng { s.rng with drawn := s.rng.drawn + 1 }

end Sys2Proof.Machine
end

