-- ==== Sys2Proof/Machine/Operands.lean ====
section
/-! DEFINITION. The operand forms: general registers, the index register, the shifted register, the bulk range
(spec/10_state.md R20 to R24; 44_arithmetic_flags.md R153; 46_memory_indexed.md R169 to R171). No register is hardwired
(R20): all sixteen are read and written alike. -/

namespace Sys2Proof.Machine

/-- Read `V[x]` (00_scope.md R10). -/
def State.readV (s : State) (x : Reg) : Byte := s.V[x.val]

/-- `V[x] <- b` (R10). -/
def State.writeV (s : State) (x : Reg) (b : Byte) : State := s.withV (s.V.set x.val b)

/-- `V[0], V[1], ... <- bs`, in ascending order; the registers past the bytes keep their values (46 R170). -/
def State.writeRegs (s : State) (bs : List Byte) : State :=
  s.withV (Vector.ofFn fun k : Fin 16 => bs.getD k.val (s.readV k))

/-- The values `V[0] .. V[count-1]`, in ascending order (46 R169). -/
def State.readRegs (s : State) (count : Nat) : List Byte := s.V.toList.take count

/-- `I <- v`, reduced to the width of `I` (R24). -/
def State.setI (s : State) (v : Nat) : State := s.withI (BitVec.ofNat Config.indexWidth v)

/-- The register that a shift reads under SHIFT_IN_PLACE (44 R153, decision D12): `V[x]` in place; with the parameter
false, `V[y]`, the other convention that R153 names (log 13). -/
def shiftSource (inPlace : Bool) (x y : Reg) : Reg := if inPlace then x else y

/-- How many registers a bulk transfer moves under BULK_INCLUSIVE (46 R169): `V[0]` to `V[x]`; with the parameter
false, `V[0]` to `V[x-1]`. -/
def bulkCount (inclusive : Bool) (x : Reg) : Nat := if inclusive then x.val + 1 else x.val

/-- `I` after a bulk transfer under BULK_ADVANCES_I (46 R169): unchanged. The spec gives no amount for the parameter's
other value; the family's, the number of bytes moved, stands here (log 14). -/
def afterBulk (advances : Bool) (count : Nat) (s : State) : State :=
  if advances then s.setI (s.I.toNat + count) else s

end Sys2Proof.Machine
end

