-- ==== Sys2Proof/Machine/Flags.lean ====
section
/-! DEFINITION. The flag computations (spec/10_state.md R22; 44_arithmetic_flags.md R150 to R156). Every flag is the
byte 0 or 1 in VF = `V[15]`. -/

namespace Sys2Proof.Machine

/-- Carry (R150, R156): the true sum exceeds 255. -/
def carryOut (a b : Byte) : Bool := decide (255 < a.toNat + b.toNat)

/-- Not-borrow (R151, R156): the minuend is at least the subtrahend. -/
def notBorrow (minuend subtrahend : Byte) : Bool := decide (subtrahend.toNat ≤ minuend.toNat)

/-- The low bit that a shift right loses (R153). -/
def lostLow (a : Byte) : Bool := a.getLsbD 0

/-- The high bit that a shift left loses (R154; 90_conflicts.md C9). -/
def lostHigh (a : Byte) : Bool := a.getLsbD 7

/-- `VF <- 1` or `VF <- 0`. -/
def writeFlag (f : Bool) (s : State) : State := s.writeV flagReg (flagByte f)

/-- The two writes of R155: the result to `V[x]`, then the flag to VF, which wins when `x = 15` (decision D11,
log 12). -/
def writeResultAndFlag (x : Reg) (r : Byte) (f : Bool) (s : State) : State := writeFlag f (s.writeV x r)

end Sys2Proof.Machine
end

