-- ==== Sys2Proof/Machine/Arithmetic.lean ====
section
/-! DEFINITION. Arithmetic with flags: ADD_REG, SUB, SUBN, SHR, SHL (spec/44_arithmetic_flags.md R150 to R156). The
operands are read before either write. -/

namespace Sys2Proof.Machine

/-- ADD_REG (R150): the sum modulo 256, VF = carry. -/
def execAddReg (x y : Reg) (s : State) : Result :=
  advance 2 (writeResultAndFlag x (s.readV x + s.readV y) (carryOut (s.readV x) (s.readV y)) s)

/-- SUB (R151): `V[x] - V[y]` modulo 256, VF = not-borrow. -/
def execSub (x y : Reg) (s : State) : Result :=
  advance 2 (writeResultAndFlag x (s.readV x - s.readV y) (notBorrow (s.readV x) (s.readV y)) s)

/-- SUBN (R152): `V[y] - V[x]` modulo 256, VF = not-borrow. -/
def execSubn (x y : Reg) (s : State) : Result :=
  advance 2 (writeResultAndFlag x (s.readV y - s.readV x) (notBorrow (s.readV y) (s.readV x)) s)

/-- SHR (R153): a logical shift by one, VF = the lost low bit. -/
def execShr (x y : Reg) (s : State) : Result :=
  let a := s.readV (shiftSource Config.shiftInPlace x y)
  advance 2 (writeResultAndFlag x (a >>> 1) (lostLow a) s)

/-- SHL (R154): a shift by one modulo 256, VF = the lost high bit. -/
def execShl (x y : Reg) (s : State) : Result :=
  let a := s.readV (shiftSource Config.shiftInPlace x y)
  advance 2 (writeResultAndFlag x (a <<< 1) (lostHigh a) s)

end Sys2Proof.Machine
end

