-- ==== Sys2Proof/Machine/ControlFlow.lean ====
section
/-! DEFINITION. Control flow: CLS, RET, JP, CALL, JP_V0 (spec/41_control_flow.md R120 to R124). -/

namespace Sys2Proof.Machine

/-- CLS (R120): every cell 0 at the current geometry, `draw` set. -/
def execCls (s : State) : Result := advance 2 ((s.withGfx Pixels.clear).withDraw true)

/-- RET (R121): `StackUnderflowFault` on an empty stack; else pop and go to the popped address. -/
def execRet (s : State) : Result :=
  if s.sp.val = 0 then raise .stackUnderflow
  else setPc (s.stackEntry s.popSlot).toNat (popReturn s)

/-- JP (R122). -/
def execJp (nnn : Addr) (s : State) : Result := setPc nnn.toNat s

/-- CALL (R123): the checks in the order of the rule, then push `pc + 2` and go to `nnn`. -/
def execCall (nnn : Addr) (s : State) : Result :=
  if s.sp.val = Config.stackDepth then raise .stackOverflow
  else if 4094 < s.pc.toNat + 2 then raise (.pcRange (s.pc.toNat + 2))
  else setPc nnn.toNat (pushReturn (BitVec.ofNat 12 (s.pc.toNat + 2)) s)

/-- JP_V0 (R124): the register is always `V[0]`, the sum is not reduced. -/
def execJpV0 (nnn : Addr) (s : State) : Result := setPc (nnn.toNat + (s.readV 0).toNat) s

end Sys2Proof.Machine
end

