-- ==== Sys2Proof/Machine/DataMovement.lean ====
section
/-! DEFINITION. Data movement and logic: LD_IMM, ADD_IMM, LD_REG, OR, AND, XOR (spec/43_data_movement.md R140 to
R145). None writes VF as a flag. -/

namespace Sys2Proof.Machine

/-- LD_IMM (R140). -/
def execLdImm (x : Reg) (kk : Byte) (s : State) : Result := advance 2 (s.writeV x kk)

/-- ADD_IMM (R141): modulo 256, no flag. -/
def execAddImm (x : Reg) (kk : Byte) (s : State) : Result := advance 2 (s.writeV x (s.readV x + kk))

/-- LD_REG (R142). -/
def execLdReg (x y : Reg) (s : State) : Result := advance 2 (s.writeV x (s.readV y))

/-- OR (R143). -/
def execOrReg (x y : Reg) (s : State) : Result := advance 2 (s.writeV x (s.readV x ||| s.readV y))

/-- AND (R144). -/
def execAndReg (x y : Reg) (s : State) : Result := advance 2 (s.writeV x (s.readV x &&& s.readV y))

/-- XOR (R145). -/
def execXorReg (x y : Reg) (s : State) : Result := advance 2 (s.writeV x (s.readV x ^^^ s.readV y))

end Sys2Proof.Machine
end

