-- ==== Sys2Proof/Machine/Display.lean ====
section
/-! DEFINITION. The display instruction: DRW (spec/47_display.md R180 to R183). -/

namespace Sys2Proof.Machine

/-- DRW (R180): the memory check, then the box check, then the sprite is exclusive-ored onto the buffer at
(`V[x]`, `V[y]`), VF = collision, `draw` set. The coordinates are read before VF is written. -/
def execDrw (x y : Reg) (n : Fin 16) (s : State) : Result :=
  let px := (s.readV x).toNat
  let py := (s.readV y).toNat
  orRaise (memRead s.I.toNat n.val s) fun rows =>
    orRaise (boxCheck Config.drawEdge px py n.val s) fun _ =>
      let drawn := drawSprite px py rows s.gfx
      advance 2 (writeFlag drawn.2 ((s.withGfx drawn.1).withDraw true))

end Sys2Proof.Machine
end

