-- ==== Sys2Proof/Machine/InputTimers.lean ====
section
/-! DEFINITION. Input and timer instructions: SKP, SKNP, LD_K, LD_VX_DT, LD_DT, LD_ST (spec/48_input_timers.md R190 to
R197). -/

namespace Sys2Proof.Machine

/-- SKP (R190). -/
def execSkp (x : Reg) (s : State) : Result :=
  orRaise (keyIndex (s.readV x)) fun k => skipIf (s.keyDown k) s

/-- SKNP (R191) under KEYUP_MEANS_UP: the skip is taken when the key is not down; with the parameter false, as SKP. -/
def execSknp (x : Reg) (s : State) : Result :=
  orRaise (keyIndex (s.readV x)) fun k =>
    skipIf (if Config.keyupMeansUp then !s.keyDown k else s.keyDown k) s

/-- LD_K (R192): names the target and blocks; `pc` moves by 2 at issue (90_conflicts.md C2). `keys` is not looked at. -/
def execLdK (x : Reg) (s : State) : Result := advance 2 ((s.withBlockTarget x).withBlocking true)

/-- LD_VX_DT (R194). -/
def execLdVxDt (x : Reg) (s : State) : Result := advance 2 (s.writeV x s.DT)

/-- LD_DT (R195). -/
def execLdDt (x : Reg) (s : State) : Result := advance 2 (s.withDT (s.readV x))

/-- LD_ST (R196). -/
def execLdSt (x : Reg) (s : State) : Result := advance 2 (s.withST (s.readV x))

end Sys2Proof.Machine
end

