-- ==== Sys2Proof/Machine/MemoryIndexed.lean ====
section
/-! DEFINITION. Memory-indexed instructions: LD_I, ADD_I, LD_F, LD_B, ST_REGS, LD_REGS (spec/46_memory_indexed.md R165
to R171). -/

namespace Sys2Proof.Machine

/-- LD_I (R165): zero-extended to 16 bits. -/
def execLdI (nnn : Addr) (s : State) : Result := advance 2 (s.setI nnn.toNat)

/-- ADD_I (R166): modulo 65536, no flag (decision D9, log 11). -/
def execAddI (x : Reg) (s : State) : Result := advance 2 (s.setI (s.I.toNat + (s.readV x).toNat))

/-- LD_F (R167): FONT_BASE + 5 * V[x], the value not masked (decision D20, log 18). -/
def execLdF (x : Reg) (s : State) : Result :=
  advance 2 (s.setI (Config.fontBase + Config.glyphBytes * (s.readV x).toNat))

/-- The three decimal digits of a byte, hundreds first (R168; decision D34, log 19). -/
def decimalDigits (v : Byte) : List Byte :=
  [BitVec.ofNat 8 (v.toNat / 100), BitVec.ofNat 8 (v.toNat / 10 % 10), BitVec.ofNat 8 (v.toNat % 10)]

/-- LD_B (R168): the digits of `V[x]` at `I`, `I+1`, `I+2`. -/
def execLdB (x : Reg) (s : State) : Result :=
  orRaise (memWrite s.I.toNat (decimalDigits (s.readV x)) s) (advance 2)

/-- ST_REGS (R169): `V[0] .. V[x]` at `I` upwards; `I` unchanged (decision D15, log 14). -/
def execStRegs (x : Reg) (s : State) : Result :=
  let count := bulkCount Config.bulkInclusive x
  orRaise (memWrite s.I.toNat (s.readRegs count) s) fun s' =>
    advance 2 (afterBulk Config.bulkAdvancesI count s')

/-- LD_REGS (R170): the mirror of ST_REGS. -/
def execLdRegs (x : Reg) (s : State) : Result :=
  let count := bulkCount Config.bulkInclusive x
  orRaise (memRead s.I.toNat count s) fun bs =>
    advance 2 (afterBulk Config.bulkAdvancesI count (s.writeRegs bs))

end Sys2Proof.Machine
end

