-- ==== Sys2Proof/Machine/Random.lean ====
section
/-! DEFINITION. Randomness: RND (spec/45_random.md R160, R161). -/

namespace Sys2Proof.Machine

/-- RND (R161): one free byte, masked with `kk`; the draw is consumed also when `kk = 0`. -/
def execRnd (x : Reg) (kk : Byte) (s : State) : Result :=
  advance 2 ((consumeByte s).writeV x (s.nextByte &&& kk))

end Sys2Proof.Machine
end

