-- ==== Sys2Proof/Machine/Skip.lean ====
section
/-! DEFINITION. Conditional skips: SE_IMM, SNE_IMM, SE_REG, SNE_REG (spec/42_conditional_skip.md R130 to R133). -/

namespace Sys2Proof.Machine

/-- SE_IMM (R130). -/
def execSeImm (x : Reg) (kk : Byte) (s : State) : Result := skipIf (s.readV x == kk) s

/-- SNE_IMM (R131). -/
def execSneImm (x : Reg) (kk : Byte) (s : State) : Result := skipIf (s.readV x != kk) s

/-- SE_REG (R132). -/
def execSeReg (x y : Reg) (s : State) : Result := skipIf (s.readV x == s.readV y) s

/-- SNE_REG (R133). -/
def execSneReg (x y : Reg) (s : State) : Result := skipIf (s.readV x != s.readV y) s

end Sys2Proof.Machine
end

