-- ==== Sys2Proof/Machine/Termination.lean ====
section
/-! DEFINITION. Termination: NOP, HALT, UNKNOWN (spec/49_termination.md R205 to R207). -/

namespace Sys2Proof.Machine

/-- NOP (R205): only `pc` moves. -/
def execNop (s : State) : Result := advance 2 s

/-- HALT (R206): `halted` set, `pc` not moved. -/
def execHalt (s : State) : Result := .next (s.withHalted true)

/-- UNKNOWN (R207): `quit` set, `pc` not moved; the raw word is used for nothing. -/
def execUnknown (_raw : Word) (s : State) : Result := .next (s.withQuit true)

end Sys2Proof.Machine
end

