-- ==== Sys2Proof/Machine/Cycle.lean ====
section
/-! DEFINITION. The Cycle: fetch, decode, dispatch, execute (spec/40_pipeline.md R100 to R108). -/

namespace Sys2Proof.Machine

/-- The first Cycle closes the window in which a Load may come (70_reset_and_hazards.md R256; log 9). -/
def closeLoad (s : State) : State := s.withLoadEnabled false

/-- The Cycle request of R100: refused when a fault is recorded (60_exceptions.md R217) or a terminal flag is set
(R222); no transition while blocked, the state unchanged and no violation (R101; log 20); else the word at `pc` is
fetched, decoded and executed. -/
def cycle (s : State) : Result :=
  if s.fault.isSome then .refused .deadMachine
  else if s.quit || s.halted then .refused .terminalMachine
  else if s.blocking then .next s
  else orRaise (fetch s) fun w => exec (decode w) (closeLoad s)

/-- The four flags that the host reads after each Cycle (R108). -/
structure HostFlags where
  draw : Bool
  quit : Bool
  halted : Bool
  blocking : Bool
deriving DecidableEq, Repr

/-- The host-visible flags of a state. -/
def State.flags (s : State) : HostFlags :=
  { draw := s.draw, quit := s.quit, halted := s.halted, blocking := s.blocking }

/-- The result of a Cycle request as the host sees it (R108). -/
inductive CycleResult where
  /-- A Cycle ran: read the flags. -/
  | stepped (flags : HostFlags)
  /-- The machine waits for a key (R101). -/
  | blocked
  /-- A fatal fault (60_exceptions.md R216). -/
  | fault (f : Fault)
  /-- The request was refused (R217, R222). -/
  | refused (r : Refusal)
deriving DecidableEq, Repr

/-- What a Cycle request returns to the host (R108). -/
def cycleResult (s : State) : CycleResult :=
  match cycle s with
  | .next s' => if s.blocking then .blocked else .stepped s'.flags
  | .fault f => .fault f
  | .refused r => .refused r

end Sys2Proof.Machine
end

