-- ==== Sys2Proof/Machine/Step.lean ====
section
/-! DEFINITION. The step of the machine: one Cycle request (spec/40_pipeline.md R100), and how the host places an
instruction where it is fetched. -/

namespace Sys2Proof.Machine

/-- One Cycle request. -/
def step (s : State) : Host.Outcome State Fault Refusal := cycle s

/-- `s` with the instruction whose bits are `w`, in the opcode table's numbering, stored at `pc`, where the next fetch
reads. It stands for the Load that brings a program into memory (70_reset_and_hazards.md R256, R257; log 9). -/
def State.withFetchWord (s : State) (nbits w : Nat) : State := storeAtPc (tableWord nbits w) s

end Sys2Proof.Machine
end

