-- ==== Sys2Proof/Machine/Loader.lean ====
section
/-! DEFINITION. The boot: the Load event (spec/70_reset_and_hazards.md R256 to R259). -/

namespace Sys2Proof.Machine

/-- The bytes that the loader inspects for a header (R258): the trailing 16, when the image is longer than
HEADER_THRESHOLD. -/
def trailingHeader (bytes : List Byte) : Option (List Byte) :=
  if Config.headerThreshold < bytes.length then some (bytes.drop (bytes.length - Config.headerLen)) else none

/-- Byte `k` of a header. -/
def headerByte (h : List Byte) (k : Nat) : Byte := h.getD k 0

/-- Whether a header begins with HEADER_SENTINEL (R258). -/
def hasSentinel (h : List Byte) : Bool :=
  decide ((headerByte h Config.headerSentinelOff, headerByte h (Config.headerSentinelOff + 1)) =
    Config.headerSentinel)

/-- The display resized to `w × h`: reallocated, cleared, and the two geometry registers written (R258). -/
def resize (w h : Byte) (s : State) : State :=
  ((((s.withWidth w).withHeight h).withGfx Pixels.clear).writeV Config.geomRegW w).writeV Config.geomRegH h

/-- Header detection (R258, R259): the geometry and its registers change only when the sentinel is found. -/
def applyHeader (bytes : List Byte) (s : State) : State :=
  match trailingHeader bytes with
  | some h => if hasSentinel h then resize (headerByte h Config.headerWOff) (headerByte h Config.headerHOff) s else s
  | none => s

/-- Load(bytes): no effect on a dead machine (60_exceptions.md R217), refused when it is not enabled (R256), fatal when
the image does not fit (R257); else the whole image is copied to ENTRY and the header applied, as one event. -/
def load (bytes : List Byte) (s : State) : Result :=
  if s.fault.isSome then .next s
  else if !s.loadEnabled then .refused .loadNotEnabled
  else if Config.memSize < Config.entry + bytes.length then raise (.memoryRange Config.memSize)
  else .next (applyHeader bytes
    ((s.withMem (s.mem.writeBytes Config.entry bytes)).withLoadEnabled false))

end Sys2Proof.Machine
end

