-- ==== Sys2Proof/Machine/Events.lean ====
section
/-! DEFINITION. The events: what the host can do to the machine besides asking for a Cycle, and what the machine is
after any sequence of events (spec/60_exceptions.md R215, R217, R230 to R244; 48_input_timers.md R193;
70_reset_and_hazards.md R250 to R260). -/

namespace Sys2Proof.Machine

/-- A host event other than Reset has no effect on a dead machine (60_exceptions.md R217). -/
def whenLive (s t : State) : State := if s.fault.isSome then s else t

/-- SetKeys (60_exceptions.md R235). -/
def setKeys (ks : Vector Bool 16) (s : State) : State := whenLive s (s.withKeys ks)

/-- The key-wait completed by key `k` (48_input_timers.md R193). -/
def completeWait (k : Fin 16) (s : State) : State :=
  (s.writeV s.blockTarget (BitVec.ofNat 8 k.val)).withBlocking false

/-- ResolveKey (48_input_timers.md R193): level-sensitive, the lowest held key (decisions D19, D35; log 16). -/
def resolveKey (s : State) : State :=
  whenLive s <|
    if s.blocking then
      match pickKey Config.keyPick s with
      | some k => completeWait k s
      | none => s
    else s

/-- TimerTick (60_exceptions.md R237): both timers one step towards zero. -/
def timerTick (s : State) : State := whenLive s ((s.withDT (countDown s.DT)).withST (countDown s.ST))

/-- ClearDraw (60_exceptions.md R238). -/
def clearDraw (s : State) : State := whenLive s (s.withDraw false)

/-- Reset (70_reset_and_hazards.md R250), enabled in every state: every field at its reset value, the random source
seeded anew (R254; log 1). -/
def resetEvent (s : State) : State :=
  State.reset.withRng { seed := Config.entropySeed s.rng.seed s.rng.drawn, drawn := 0 }

/-- The events of the machine (00_scope.md R8, 40_pipeline.md R111). -/
inductive Event where
  | reset
  | load (bytes : List Byte)
  | cycle
  | setKeys (ks : Vector Bool 16)
  | resolveKey
  | timerTick
  | clearDraw
deriving DecidableEq, Repr

/-- What the request of an event answers. -/
def Event.request (e : Event) (s : State) : Result :=
  match e with
  | .reset => .next (resetEvent s)
  | .load bytes => Sys2Proof.Machine.load bytes s
  | .cycle => step s
  | .setKeys ks => .next (Sys2Proof.Machine.setKeys ks s)
  | .resolveKey => .next (Sys2Proof.Machine.resolveKey s)
  | .timerTick => .next (Sys2Proof.Machine.timerTick s)
  | .clearDraw => .next (Sys2Proof.Machine.clearDraw s)

/-- The state that a request leaves: the next state; on a fault the state as it was with the fault recorded
(60_exceptions.md R215, 10_state.md R39); on a refusal the state unchanged (R217, R222). -/
def settle (s : State) (r : Result) : State :=
  match r with
  | .next s' => s'
  | .fault f => s.withFault (some f)
  | .refused _ => s

/-- The state after an event. -/
def Event.after (e : Event) (s : State) : State := settle s (e.request s)

/-- The state after a sequence of events: any interleaving the host may choose (60_exceptions.md R230). -/
def Event.run (es : List Event) (s : State) : State := es.foldl (fun t e => e.after t) s

/-- The read-only inspection surface (60_exceptions.md R243, decision D33): the full register file, the full memory, the
full pixel buffer row by row, and the rest of the readable set. -/
structure Inspection where
  V : List Byte
  memory : List Byte
  pixels : List (List Bool)
  pc : Addr
  I : BitVec Config.indexWidth
  sp : Nat
  DT : Byte
  ST : Byte
  stack : List Addr
  keys : List Bool
  width : Byte
  height : Byte
  blockTarget : Reg
  flags : HostFlags
deriving DecidableEq, Repr

/-- What the host reads between events; it has no side effect. -/
def State.inspect (s : State) : Inspection :=
  { V := s.V.toList
    memory := s.mem.readBytes 0 Config.memSize
    pixels := (List.range s.height.toNat).map fun cy =>
      (List.range s.width.toNat).map fun cx => s.gfx.get cx cy
    pc := s.pc, I := s.I, sp := s.sp.val, DT := s.DT, ST := s.ST
    stack := s.stack.toList, keys := s.keys.toList
    width := s.width, height := s.height, blockTarget := s.blockTarget, flags := s.flags }

end Sys2Proof.Machine
end

