-- ==== Sys2Proof/Safety.lean ====
section
/-! DEFINITION. What counts as a good state and a safe run, in the terms the statements use (spec/10_state.md R42;
60_exceptions.md R215: "a claim about a program takes "no fault" as a premise or proves it"). -/

namespace Sys2Proof.Machine

/-- The invariant of 10_state.md R42, with the canonical form of the two sparse fields. The bounds of R42 that are not
here hold by the types: `pc` and the stack entries have 12 bits, `sp` is a `Fin 17`, the registers and timers are
bytes, `I` has 16 bits. -/
structure State.Inv (s : State) : Prop where
  /-- "`pc` is even". -/
  pcEven : s.pc.toNat % 2 = 0
  /-- "every `stack[k]` is even". -/
  stackEven : ∀ k : Fin 16, (s.stackEntry k).toNat % 2 = 0
  /-- "`quit` and `halted` are not both true". -/
  oneTerminal : ¬ (s.quit = true ∧ s.halted = true)
  /-- "`blocking` is false when `quit` or `halted` is true". -/
  blockedNotTerminal : s.blocking = true → s.quit = false ∧ s.halted = false
  /-- The memory is in canonical form. -/
  memCanonical : Memory.wf s.mem
  /-- The pixel buffer is in canonical form, every set cell inside `width × height`. -/
  gfxCanonical : Pixels.wf s.gfx s.width.toNat s.height.toNat

/-- The machine takes a Cycle: no fault recorded, no terminal flag, not blocked (40_pipeline.md R100). -/
structure State.Running (s : State) : Prop where
  noFault : s.fault = none
  notQuit : s.quit = false
  notHalted : s.halted = false
  notBlocked : s.blocking = false

/-- A run of `k` steps that meets no fault and no refusal. -/
def SafeFor (k : Nat) (s : State) : Prop := ∃ s', Host.Core.run Sys2Proof.core k s = .next s'

end Sys2Proof.Machine
end

