-- ==== Sys2Proof/Certificates/Slice0/Obligations.lean ====
section
/-! DEFINITION. The statements for the provers. They are written in the terms of the spec's rules: operand fields as
quotients and remainders of the word's number, results as numbers, and a frame that names every piece of state. -/

namespace Sys2Proof.Claim

open Sys2Proof.Machine

/-! ## Vocabulary -/

/-- A piece of the state: what spec/10_state.md R20 to R39 name, and the two fields of the model's own. -/
inductive Place where
  | reg (x : Reg)
  | pc
  | index
  | stackPointer
  | stackSlot (k : Fin 16)
  | byte (a : Nat)
  | pixel (cx cy : Nat)
  | width
  | height
  | delayTimer
  | soundTimer
  | key (k : Fin 16)
  | blocking
  | blockTarget
  | draw
  | quit
  | halted
  | randomSource
  | faultRecord
  | loadWindow

/-- The piece of state holds the same in two states. A byte and a pixel are compared by the model's reads. -/
def Place.same (p : Place) (s t : State) : Prop :=
  match p with
  | .reg x => t.readV x = s.readV x
  | .pc => t.pc = s.pc
  | .index => t.I = s.I
  | .stackPointer => t.sp = s.sp
  | .stackSlot k => t.stackEntry k = s.stackEntry k
  | .byte a => t.mem.read a = s.mem.read a
  | .pixel cx cy => t.gfx.get cx cy = s.gfx.get cx cy
  | .width => t.width = s.width
  | .height => t.height = s.height
  | .delayTimer => t.DT = s.DT
  | .soundTimer => t.ST = s.ST
  | .key k => t.keyDown k.val = s.keyDown k.val
  | .blocking => t.blocking = s.blocking
  | .blockTarget => t.blockTarget = s.blockTarget
  | .draw => t.draw = s.draw
  | .quit => t.quit = s.quit
  | .halted => t.halted = s.halted
  | .randomSource => t.rng = s.rng
  | .faultRecord => t.fault = s.fault
  | .loadWindow => t.loadEnabled = s.loadEnabled

/-- The frame: every piece of state is unchanged except those named. -/
def Frame (s t : State) (changed : Place → Prop) : Prop := ∀ p, ¬ changed p → p.same s t

/-- Field x of 30_encoding.md R82, bits 11..8, as a quotient. -/
def xOf (w : Word) : Reg := Fin.ofNat 16 (w.toNat / 256)

/-- Field y of R82, bits 7..4. -/
def yOf (w : Word) : Reg := Fin.ofNat 16 (w.toNat / 16)

/-- Field n of R82, bits 3..0. -/
def nOf (w : Word) : Fin 16 := Fin.ofNat 16 w.toNat

/-- Field kk of R82, bits 7..0. -/
def kkOf (w : Word) : Byte := BitVec.ofNat 8 w.toNat

/-- Field nnn of R82, bits 11..0. -/
def nnnOf (w : Word) : Addr := BitVec.ofNat 12 w.toNat

/-- Every word that matches a pattern under a mask decodes to the instruction with that word's fields. -/
def EncodedAs (pattern mask : Word) (i : Word → Instr) : Prop := ∀ w, w &&& mask = pattern → decode w = i w

/-- The instruction answers a next state with `pc` moved to `target`, an effect, and nothing else changed. -/
def Completes (i : Instr) (s : State) (target : Nat) (effect : State → Prop) (changed : Place → Prop) : Prop :=
  ∃ t, exec i s = .next t ∧ t.pc.toNat = target ∧ effect t ∧ Frame s t (fun p => p = .pc ∨ changed p)

/-- An instruction of `Advance(2)` on every path whose only fault is `PcRangeFault(4096)` at `pc = 4094`. -/
def PlainEffect (i : Instr) (effect : State → State → Prop) (changed : State → Place → Prop) : Prop :=
  ∀ s, s.pc.toNat % 2 = 0 →
    (s.pc.toNat ≤ 4092 → Completes i s (s.pc.toNat + 2) (effect s) (changed s)) ∧
    (s.pc.toNat = 4094 → exec i s = .fault (.pcRange 4096))

/-- A skip on a condition (42_conditional_skip.md R130). -/
def SkipsWhen (i : Instr) (s : State) (cond : Prop) : Prop :=
  (cond → s.pc.toNat ≤ 4090 → Completes i s (s.pc.toNat + 4) (fun _ => True) (fun _ => False)) ∧
  (¬ cond → s.pc.toNat ≤ 4092 → Completes i s (s.pc.toNat + 2) (fun _ => True) (fun _ => False)) ∧
  (cond → 4092 ≤ s.pc.toNat → exec i s = .fault (.pcRange (s.pc.toNat + 4))) ∧
  (¬ cond → s.pc.toNat = 4094 → exec i s = .fault (.pcRange 4096))

/-- The bit of a sprite at a cell (47_display.md R180, R182): inside the box, bit `7 - c` of the row's byte. -/
def spriteBit (s : State) (px py n cx cy : Nat) : Bool :=
  decide (px ≤ cx ∧ cx < px + 8 ∧ py ≤ cy ∧ cy < py + n) &&
    (s.mem.read (s.I.toNat + (cy - py))).getLsbD (7 - (cx - px))

/-- The sprite's box is wholly inside the buffer, or empty (47_display.md R181). -/
def BoxInside (s : State) (px py n : Nat) : Prop :=
  n = 0 ∨ (px + 7 < s.width.toNat ∧ py + n - 1 < s.height.toNat)

/-- A piece of state is a cell of the sprite's box. -/
def InBox (px py n : Nat) (p : Place) : Prop :=
  ∃ cx cy, p = .pixel cx cy ∧ px ≤ cx ∧ cx < px + 8 ∧ py ≤ cy ∧ cy < py + n

/-- The word that a fetch at `pc` reads, big-endian. -/
def wordAtPc (s : State) : Word := s.mem.read s.pc.toNat ++ s.mem.read (s.pc.toNat + 1)

/-- A machine with a terminal flag set and no fault recorded (60_exceptions.md R222). -/
def Terminal (s : State) : Prop := s.fault = none ∧ (s.quit = true ∨ s.halted = true)

/-- The key of index `k` alone is down. -/
def onlyKey (k : Fin 16) : Vector Bool 16 := Vector.ofFn fun j => decide (j = k)

/-! ## Tables of the spec about every instruction -/

/-- 40_pipeline.md R103: where each executor leaves `pc`. -/
def pcAfter (i : Instr) (s : State) : Nat :=
  match i with
  | .halt | .unknown _ => s.pc.toNat
  | .jp nnn | .call nnn => nnn.toNat
  | .jpV0 nnn => nnn.toNat + (s.readV 0).toNat
  | .ret => (s.stackEntry (Fin.ofNat 16 (s.sp.val - 1))).toNat
  | .seImm x kk => s.pc.toNat + if s.readV x = kk then 4 else 2
  | .sneImm x kk => s.pc.toNat + if s.readV x = kk then 2 else 4
  | .seReg x y => s.pc.toNat + if s.readV x = s.readV y then 4 else 2
  | .sneReg x y => s.pc.toNat + if s.readV x = s.readV y then 2 else 4
  | .skp x => s.pc.toNat + if s.keyDown (s.readV x).toNat = true then 4 else 2
  | .sknp x => s.pc.toNat + if s.keyDown (s.readV x).toNat = true then 2 else 4
  | .cls | .nop | .ldImm _ _ | .addImm _ _ | .ldReg _ _ | .orReg _ _ | .andReg _ _ | .xorReg _ _
  | .addReg _ _ | .sub _ _ | .subn _ _ | .shr _ _ | .shl _ _ | .rnd _ _ | .ldI _ | .addI _ | .ldF _
  | .ldB _ | .stRegs _ | .ldRegs _ | .drw _ _ _ | .ldVxDt _ | .ldDt _ | .ldSt _ | .ldK _ => s.pc.toNat + 2

/-- The fault of a write of `pc` (40_pipeline.md R104), if any. -/
def pcFault (t : Nat) : Option Fault := if t % 2 = 1 ∨ 4094 < t then some (.pcRange t) else none

/-- 60_exceptions.md R218: the first fault in the order checked, if any, of each executor in a good state. -/
def firstFault (i : Instr) (s : State) : Option Fault :=
  match i with
  | .halt | .unknown _ => none
  | .ret => if s.sp.val = 0 then some .stackUnderflow else none
  | .call nnn =>
    if s.sp.val = 16 then some .stackOverflow
    else if s.pc.toNat = 4094 then some (.pcRange 4096)
    else pcFault nnn.toNat
  | .skp x | .sknp x =>
    if 15 < (s.readV x).toNat then some (.keyRange (s.readV x).toNat) else pcFault (pcAfter i s)
  | .ldB _ =>
    if 4095 < s.I.toNat + 2 then some (.memoryRange (max s.I.toNat 4096)) else pcFault (pcAfter i s)
  | .stRegs x | .ldRegs x =>
    if 4095 < s.I.toNat + x.val then some (.memoryRange (max s.I.toNat 4096)) else pcFault (pcAfter i s)
  | .drw x y n =>
    if 0 < n.val ∧ 4095 < s.I.toNat + n.val - 1 then some (.memoryRange (max s.I.toNat 4096))
    else if 0 < n.val ∧ (s.width.toNat ≤ (s.readV x).toNat + 7 ∨
        s.height.toNat ≤ (s.readV y).toNat + n.val - 1) then
      some (.displayRange (s.readV x).toNat (s.readV y).toNat n.val)
    else pcFault (pcAfter i s)
  | .jp _ | .jpV0 _ | .seImm _ _ | .sneImm _ _ | .seReg _ _ | .sneReg _ _
  | .cls | .nop | .ldImm _ _ | .addImm _ _ | .ldReg _ _ | .orReg _ _ | .andReg _ _ | .xorReg _ _
  | .addReg _ _ | .sub _ _ | .subn _ _ | .shr _ _ | .shl _ _ | .rnd _ _ | .ldI _ | .addI _ | .ldF _
  | .ldVxDt _ | .ldDt _ | .ldSt _ | .ldK _ => pcFault (pcAfter i s)

/-- 10_state.md R21, column "writes": the general registers that an instruction may write. -/
def writesReg (i : Instr) (r : Reg) : Prop :=
  match i with
  | .ldImm x _ | .rnd x _ | .ldVxDt x | .addImm x _ | .ldReg x _ | .orReg x _ | .andReg x _ | .xorReg x _ => r = x
  | .addReg x _ | .sub x _ | .subn x _ | .shr x _ | .shl x _ => r = x ∨ r = 15
  | .ldRegs x => r ≤ x
  | .drw _ _ _ => r = 15
  | .cls | .ret | .jp _ | .call _ | .ldI _ | .nop | .halt | .unknown _ | .jpV0 _ | .seImm _ _ | .sneImm _ _
  | .skp _ | .sknp _ | .seReg _ _ | .sneReg _ _ | .addI _ | .ldF _ | .ldB _ | .ldDt _ | .ldSt _ | .stRegs _
  | .ldK _ => False

/-- 10_state.md R21, column "reads": the general registers that an instruction reads. -/
def readsReg (i : Instr) (r : Reg) : Prop :=
  match i with
  | .cls | .ret | .jp _ | .call _ | .ldI _ | .nop | .halt | .unknown _ => False
  | .jpV0 _ => r = 0
  | .seImm x _ | .sneImm x _ | .skp x | .sknp x => r = x
  | .seReg x y | .sneReg x y => r = x ∨ r = y
  | .ldImm _ _ | .rnd _ _ | .ldVxDt _ => False
  | .addImm x _ => r = x
  | .ldReg _ y => r = y
  | .orReg x y | .andReg x y | .xorReg x y | .addReg x y | .sub x y | .subn x y => r = x ∨ r = y
  | .shr x _ | .shl x _ => r = x
  | .addI x | .ldF x | .ldB x | .ldDt x | .ldSt x => r = x
  | .stRegs x => r ≤ x
  | .ldRegs _ => False
  | .drw x y _ => r = x ∨ r = y
  | .ldK _ => False

/-- Every piece of state that an instruction may change, the stored bytes computed from `I` (46_memory_indexed.md R168,
R169) and the cells from the box (47_display.md R181). -/
def mayChange (i : Instr) (s : State) (p : Place) : Prop :=
  match i with
  | .halt => p = .halted
  | .unknown _ => p = .quit
  | .nop | .jp _ | .jpV0 _ | .seImm _ _ | .sneImm _ _ | .seReg _ _ | .sneReg _ _ | .skp _ | .sknp _ => p = .pc
  | .cls => p = .pc ∨ p = .draw ∨ ∃ cx cy, p = .pixel cx cy
  | .ret => p = .pc ∨ p = .stackPointer
  | .call _ => p = .pc ∨ p = .stackPointer ∨ ∃ k : Fin 16, k.val = s.sp.val ∧ p = .stackSlot k
  | .ldImm _ _ | .addImm _ _ | .ldReg _ _ | .orReg _ _ | .andReg _ _ | .xorReg _ _ | .ldVxDt _
  | .addReg _ _ | .sub _ _ | .subn _ _ | .shr _ _ | .shl _ _ | .ldRegs _ =>
    p = .pc ∨ ∃ r, writesReg i r ∧ p = .reg r
  | .rnd x _ => p = .pc ∨ p = .reg x ∨ p = .randomSource
  | .ldI _ | .addI _ | .ldF _ => p = .pc ∨ p = .index
  | .ldB _ => p = .pc ∨ ∃ k, k < 3 ∧ p = .byte (s.I.toNat + k)
  | .stRegs x => p = .pc ∨ ∃ k, k ≤ x.val ∧ p = .byte (s.I.toNat + k)
  | .drw x y n =>
    p = .pc ∨ p = .draw ∨ p = .reg 15 ∨ InBox (s.readV x).toNat (s.readV y).toNat n.val p
  | .ldK _ => p = .pc ∨ p = .blocking ∨ p = .blockTarget
  | .ldDt _ => p = .pc ∨ p = .delayTimer
  | .ldSt _ => p = .pc ∨ p = .soundTimer

/-- The same answer of an instruction in two states that differ only in their registers: the same fault, or next states
that agree on everything outside the register file and on every register the instruction writes. -/
def SameAnswer (i : Instr) (r r' : Result) : Prop :=
  match r, r' with
  | .next t, .next t' => t' = t.withV t'.V ∧ ∀ x, writesReg i x → t'.readV x = t.readV x
  | .fault f, .fault f' => f = f'
  | .refused q, .refused q' => q = q'
  | _, _ => False

end Sys2Proof.Claim

open Sys2Proof Sys2Proof.Machine Sys2Proof.Claim

/-! ## Encoding -/

/-- Ten template words, the three that the source shows among them (30_encoding.md R86), written out from the catalog's
column "enc", and the one UNKNOWN word next to SE_REG (R88). A sanity statement. -/
def Obligations.CatalogWordsDecode : Prop :=
  decode 0x6005 = .ldImm 0 5 ∧ decode 0x7003 = .addImm 0 3 ∧ decode 0xFFFF = .halt ∧
  decode 0x2FFE = .call 0xFFE ∧ decode 0x3A7F = .seImm 0xA 0x7F ∧ decode 0x8ABE = .shl 0xA 0xB ∧
  decode 0xC10F = .rnd 1 0x0F ∧ decode 0xF265 = .ldRegs 2 ∧ decode 0xD125 = .drw 1 2 5 ∧
  decode 0xF10A = .ldK 1 ∧ decode 0x5121 = .unknown 0x5121

/-- 30_encoding.md R82: the five fields of every word, as the numbers that its bits are. -/
def Obligations.FieldsAreBitSlices : Prop :=
  ∀ w : Word,
    (fieldsOf w).x.val = w.toNat / 256 % 16 ∧ (fieldsOf w).y.val = w.toNat / 16 % 16 ∧
    (fieldsOf w).kk.toNat = w.toNat % 256 ∧ (fieldsOf w).nnn.toNat = w.toNat % 4096 ∧
    (fieldsOf w).n.val = w.toNat % 16

/-- 30_encoding.md R88: the words that decode to UNKNOWN are exactly those of its table, each carried whole. -/
def Obligations.UnknownWordsAreThoseListed : Prop :=
  ∀ w : Word, decode w = .unknown w ↔ isUnknownWord w = true

/-- Decode of encode is the instruction, for every well-formed instruction with every operand. -/
def Obligations.DecodeOfEncodeIsTheInstruction : Prop :=
  ∀ i : Instr, i.wellFormed = true → decode (encode i) = i

/-- Encode of decode is the word, for each of the 65,536 words: no bit of a word is dropped, the ignored `y` of the
shifts included. -/
def Obligations.EncodeOfDecodeIsTheWord : Prop := ∀ w : Word, encode (decode w) = w

/-! ## The Cycle -/

/-- The Cycle of 40_pipeline.md R100: a recorded fault and then a terminal flag refuse the request, and otherwise the
step is the execution of the instruction decoded from the word at `pc`. Three clauses are the model's: that a blocked
machine's step answers next with the same state is the model's form of R101's "state unchanged" (DESIGN CHOICE, log 20);
the fault at `pc = 4095`, where no good state is, follows R64's pseudocode in a state that no run reaches (DEDUCED, log
10); that the step closes the load window is the model's reading of 70_reset_and_hazards.md R256 (DEDUCED, log 9). -/
def Obligations.StepRunsTheDecodedInstruction : Prop :=
  ∀ s : State,
    (s.fault ≠ none → step s = .refused .deadMachine) ∧
    (Terminal s → step s = .refused .terminalMachine) ∧
    (s.fault = none → s.quit = false → s.halted = false → s.blocking = true → step s = .next s) ∧
    (s.Running → s.pc.toNat ≤ 4094 → step s = exec (decode (wordAtPc s)) (closeLoad s)) ∧
    (s.Running → s.pc.toNat = 4095 → step s = .fault (.memoryRange 4096)) ∧
    Frame s (closeLoad s) (fun p => p = .loadWindow)

/-- 40_pipeline.md R105 with R64: the fetch never faults in a good state, and at 4095, where no good state is, it would
raise `MemoryRangeFault(4096)`. R105's claim is the spec's own inference (marked derived), so this is too. -/
def Obligations.FetchFaultsInNoGoodState : Prop :=
  ∀ s : State,
    (s.Inv → fetch s = .ok (wordAtPc s)) ∧
    (s.pc.toNat = 4095 → fetch s = .error (.memoryRange 4096))

/-- 20_memory.md R65: one byte written, or the fault, and nothing else. -/
def Obligations.MemWriteStoresOneByte : Prop :=
  ∀ (a : Nat) (v : Byte) (s : State), Memory.wf s.mem →
    (4095 < a → memWrite a [v] s = .error (.memoryRange a)) ∧
    (a ≤ 4095 → ∃ t, memWrite a [v] s = .ok t ∧ t.mem.read a = v ∧ Frame s t (fun p => p = .byte a))

/-- 20_memory.md R70 for ST_REGS: the next fetch reads the bytes that the store has just written, wherever the stored
range lies, and every other byte as before. -/
def Obligations.NextFetchSeesBulkStore : Prop :=
  ∀ (x : Reg) (s : State), s.Inv → s.pc.toNat ≤ 4092 → s.I.toNat + x.val ≤ 4095 →
    ∃ t, exec (.stRegs x) s = .next t ∧ t.pc.toNat = s.pc.toNat + 2 ∧
      ∀ b : Nat → Byte,
        (∀ r : Reg, r ≤ x → b (s.I.toNat + r.val) = s.readV r) →
        (∀ a, (∀ r : Reg, r ≤ x → a ≠ s.I.toNat + r.val) → b a = s.mem.read a) →
        fetch t = .ok (b (s.pc.toNat + 2) ++ b (s.pc.toNat + 3))

/-- 20_memory.md R70 for LD_B, in the same form. -/
def Obligations.NextFetchSeesDecimalStore : Prop :=
  ∀ (x : Reg) (s : State), s.Inv → s.pc.toNat ≤ 4092 → s.I.toNat + 2 ≤ 4095 →
    ∃ t, exec (.ldB x) s = .next t ∧ t.pc.toNat = s.pc.toNat + 2 ∧
      ∀ b : Nat → Byte,
        (b s.I.toNat).toNat = (s.readV x).toNat / 100 →
        (b (s.I.toNat + 1)).toNat = (s.readV x).toNat / 10 % 10 →
        (b (s.I.toNat + 2)).toNat = (s.readV x).toNat % 10 →
        (∀ a, (∀ k, k < 3 → a ≠ s.I.toNat + k) → b a = s.mem.read a) →
        fetch t = .ok (b (s.pc.toNat + 2) ++ b (s.pc.toNat + 3))

/-! ## Reset and the invariant -/

/-- 10_state.md R41, every row of the table. Its rows but the first three are the spec's decision D22, and the entry
address and font are D6 and D7 (logs 4 and 5); the last clause is R250's "enabled in every state", with the random source
left out because its state is unspecified (R254). -/
def Obligations.ResetLeavesTheListedValues : Prop :=
  (∀ x, State.reset.readV x = 0) ∧ State.reset.DT = 0 ∧ State.reset.ST = 0 ∧
  (∀ d r, d < 16 → r < 5 →
    State.reset.mem.read (Config.fontBase + 5 * d + r) = (Config.fontGlyphs.getD d []).getD r 0) ∧
  (∀ a, Config.fontBase + 80 ≤ a → State.reset.mem.read a = 0) ∧
  State.reset.pc.toNat = 0x200 ∧ State.reset.I = 0 ∧ State.reset.sp = 0 ∧
  (∀ k, State.reset.stackEntry k = 0) ∧ (∀ k, State.reset.keyDown k = false) ∧
  State.reset.blocking = false ∧ State.reset.blockTarget = 0 ∧ State.reset.draw = false ∧
  State.reset.quit = false ∧ State.reset.halted = false ∧
  State.reset.width.toNat = 64 ∧ State.reset.height.toNat = 32 ∧
  (∀ cx cy, State.reset.gfx.get cx cy = false) ∧ State.reset.fault = none ∧
  (∀ s : State, ∃ r, Event.after .reset s = State.reset.withRng r)

/-- The invariant of 10_state.md R42 holds at reset. -/
def Obligations.InvariantHoldsAtReset : Prop := State.reset.Inv

/-- From every state that meets the invariant, every step that answers a next state gives one that meets it. -/
def Obligations.EveryStepKeepsTheInvariant : Prop :=
  ∀ s t : State, s.Inv → step s = .next t → t.Inv

/-- Every event of the host or the core keeps the invariant, a faulting or refused one too (what it leaves is R215 and
R217). -/
def Obligations.EveryEventKeepsTheInvariant : Prop :=
  ∀ (e : Event) (s : State), s.Inv → (e.after s).Inv

/-- 10_state.md R42 as it stands, for every state reachable from Reset by the events: what InvariantHoldsAtReset and
EveryEventKeepsTheInvariant give together. Two of its clauses are the spec's own inferences (marked derived). -/
def Obligations.ReachableStatesMeetTheListedBounds : Prop :=
  ∀ es : List Event, ∀ s : State, s = Event.run es State.reset →
    s.pc.toNat % 2 = 0 ∧ s.pc.toNat ≤ 4094 ∧ s.sp.val ≤ 16 ∧
    (∀ k, (s.stackEntry k).toNat % 2 = 0 ∧ (s.stackEntry k).toNat ≤ 4094) ∧
    ¬ (s.quit = true ∧ s.halted = true) ∧
    (s.quit = true ∨ s.halted = true → s.blocking = false)

/-! ## Rules about every instruction -/

/-- 60_exceptions.md R218 and R220: in a good state an instruction raises exactly the first fault of its row that applies,
completes when none does, and is never refused. It rests on the spec's decisions D8, D16, D18, D23 and D24 (logs 10, 15,
16). -/
def Obligations.FaultsAreExactlyTheListedOnes : Prop :=
  ∀ (i : Instr) (s : State), s.Inv →
    (∀ f, firstFault i s = some f → exec i s = .fault f) ∧
    (firstFault i s = none → ∃ t, exec i s = .next t)

/-- 40_pipeline.md R103: where every executor leaves `pc`. -/
def Obligations.EveryExecutorLeavesPcAsListed : Prop :=
  ∀ (i : Instr) (s t : State), exec i s = .next t → t.pc.toNat = pcAfter i s

/-- The frame of every instruction: nothing changes but what its rule names. -/
def Obligations.EveryInstructionChangesOnlyWhatItNames : Prop :=
  ∀ (i : Instr) (s t : State), exec i s = .next t → Frame s t (mayChange i s)

/-- 10_state.md R21, the column "reads": no register outside it enters an instruction's answer. -/
def Obligations.OnlyTheListedRegistersAreRead : Prop :=
  ∀ (i : Instr) (s : State) (V' : Vector Byte 16),
    (∀ r : Reg, readsReg i r → V'[r.val] = s.readV r) →
    SameAnswer i (exec i s) (exec i (s.withV V'))

/-- 47_display.md R183 and 10_state.md R32: a pixel changes only in CLS and DRW, which set `draw`; no instruction clears
`draw`. -/
def Obligations.OnlyClsAndDrwWritePixels : Prop :=
  ∀ (i : Instr) (s t : State), exec i s = .next t →
    (s.draw = true → t.draw = true) ∧
    (t.gfx ≠ s.gfx ∨ t.draw ≠ s.draw →
      t.draw = true ∧ (i = .cls ∨ ∃ x y n, i = .drw x y n))

/-! ## Control flow -/

/-- 41_control_flow.md R120. -/
def Obligations.ClsClearsTheBuffer : Prop :=
  EncodedAs 0x00E0 0xFFFF (fun _ => .cls) ∧
  PlainEffect .cls (fun _ t => (∀ cx cy, t.gfx.get cx cy = false) ∧ t.draw = true)
    (fun _ p => p = .draw ∨ ∃ cx cy, p = .pixel cx cy)

/-- 41_control_flow.md R121: underflow, the return, and that in a good state no popped value is rejected. -/
def Obligations.RetPopsTheReturnAddress : Prop :=
  EncodedAs 0x00EE 0xFFFF (fun _ => .ret) ∧
  ∀ s : State,
    (s.sp.val = 0 → exec .ret s = .fault .stackUnderflow) ∧
    (∀ k : Fin 16, s.sp.val = k.val + 1 → (s.stackEntry k).toNat % 2 = 0 →
      Completes .ret s (s.stackEntry k).toNat (fun t => t.sp.val = k.val) (fun p => p = .stackPointer)) ∧
    (s.Inv → ∀ v, exec .ret s ≠ .fault (.pcRange v))

/-- 41_control_flow.md R122; the fault of an odd target is the spec's decision D8 (log 10). -/
def Obligations.JumpGoesToItsAddress : Prop :=
  EncodedAs 0x1000 0xF000 (fun w => .jp (nnnOf w)) ∧
  ∀ (nnn : Addr) (s : State),
    (nnn.toNat % 2 = 0 → Completes (.jp nnn) s nnn.toNat (fun _ => True) (fun _ => False)) ∧
    (nnn.toNat % 2 = 1 → exec (.jp nnn) s = .fault (.pcRange nnn.toNat))

/-- 41_control_flow.md R123; the order of the checks, the range faults and the stack discipline are the spec's decisions
D24, D8 and D10 (logs 6, 10). -/
def Obligations.CallPushesTheReturnAddress : Prop :=
  EncodedAs 0x2000 0xF000 (fun w => .call (nnnOf w)) ∧
  ∀ (nnn : Addr) (s : State), s.pc.toNat % 2 = 0 →
    (s.sp.val = 16 → exec (.call nnn) s = .fault .stackOverflow) ∧
    (∀ k : Fin 16, s.sp.val = k.val →
      (s.pc.toNat = 4094 → exec (.call nnn) s = .fault (.pcRange 4096)) ∧
      (s.pc.toNat ≤ 4092 → nnn.toNat % 2 = 1 → exec (.call nnn) s = .fault (.pcRange nnn.toNat)) ∧
      (s.pc.toNat ≤ 4092 → nnn.toNat % 2 = 0 →
        Completes (.call nnn) s nnn.toNat
          (fun t => (t.stackEntry k).toNat = s.pc.toNat + 2 ∧ t.sp.val = s.sp.val + 1)
          (fun p => p = .stackPointer ∨ p = .stackSlot k)))

/-- A CALL, and then a RET in any state with that stack, is back at the instruction after the CALL with the stack pointer
of before (41_control_flow.md R121, R123; the source's scenario V308 of 95_test_vectors.md). -/
def Obligations.ReturnUndoesCall : Prop :=
  ∀ (nnn : Addr) (s t u : State), s.pc.toNat % 2 = 0 → exec (.call nnn) s = .next t →
    u.stack = t.stack → u.sp = t.sp →
    Completes .ret u (s.pc.toNat + 2) (fun v => v.sp = s.sp) (fun p => p = .stackPointer)

/-- 41_control_flow.md R124; the range fault without reduction is the spec's decision D8 (log 10). -/
def Obligations.JumpWithOffsetAddsRegisterZero : Prop :=
  EncodedAs 0xB000 0xF000 (fun w => .jpV0 (nnnOf w)) ∧
  ∀ (nnn : Addr) (s : State) (v : Nat), v = nnn.toNat + (s.readV 0).toNat →
    (v % 2 = 0 → v ≤ 4094 → Completes (.jpV0 nnn) s v (fun _ => True) (fun _ => False)) ∧
    (v % 2 = 1 ∨ 4094 < v → exec (.jpV0 nnn) s = .fault (.pcRange v))

/-! ## Conditional skips -/

/-- 42_conditional_skip.md R130 and R131. -/
def Obligations.ImmediateSkips : Prop :=
  EncodedAs 0x3000 0xF000 (fun w => .seImm (xOf w) (kkOf w)) ∧
  EncodedAs 0x4000 0xF000 (fun w => .sneImm (xOf w) (kkOf w)) ∧
  ∀ (x : Reg) (kk : Byte) (s : State), s.pc.toNat % 2 = 0 →
    SkipsWhen (.seImm x kk) s (s.readV x = kk) ∧ SkipsWhen (.sneImm x kk) s (s.readV x ≠ kk)

/-- 42_conditional_skip.md R132 and R133, with the words next to theirs, which are UNKNOWN. -/
def Obligations.RegisterSkips : Prop :=
  EncodedAs 0x5000 0xF00F (fun w => .seReg (xOf w) (yOf w)) ∧
  EncodedAs 0x9000 0xF00F (fun w => .sneReg (xOf w) (yOf w)) ∧
  (∀ w : Word, w &&& 0xF000 = 0x5000 ∨ w &&& 0xF000 = 0x9000 → w &&& 0x000F ≠ 0 → decode w = .unknown w) ∧
  ∀ (x y : Reg) (s : State), s.pc.toNat % 2 = 0 →
    SkipsWhen (.seReg x y) s (s.readV x = s.readV y) ∧ SkipsWhen (.sneReg x y) s (s.readV x ≠ s.readV y)

/-! ## Data movement and logic -/

/-- 43_data_movement.md R140, R141 and R142. -/
def Obligations.LoadAddImmediateAndCopy : Prop :=
  EncodedAs 0x6000 0xF000 (fun w => .ldImm (xOf w) (kkOf w)) ∧
  EncodedAs 0x7000 0xF000 (fun w => .addImm (xOf w) (kkOf w)) ∧
  EncodedAs 0x8000 0xF00F (fun w => .ldReg (xOf w) (yOf w)) ∧
  (∀ (x : Reg) (kk : Byte), PlainEffect (.ldImm x kk) (fun _ t => t.readV x = kk) (fun _ p => p = .reg x)) ∧
  (∀ (x : Reg) (kk : Byte), PlainEffect (.addImm x kk)
    (fun s t => (t.readV x).toNat = ((s.readV x).toNat + kk.toNat) % 256) (fun _ p => p = .reg x)) ∧
  (∀ x y : Reg, PlainEffect (.ldReg x y) (fun s t => t.readV x = s.readV y) (fun _ p => p = .reg x))

/-- 43_data_movement.md R143, R144 and R145, bit by bit; that VF is left alone is the spec's decision D21 (log 21). -/
def Obligations.BitwiseLogic : Prop :=
  EncodedAs 0x8001 0xF00F (fun w => .orReg (xOf w) (yOf w)) ∧
  EncodedAs 0x8002 0xF00F (fun w => .andReg (xOf w) (yOf w)) ∧
  EncodedAs 0x8003 0xF00F (fun w => .xorReg (xOf w) (yOf w)) ∧
  ∀ x y : Reg,
    PlainEffect (.orReg x y)
      (fun s t => ∀ k, (t.readV x).getLsbD k = ((s.readV x).getLsbD k || (s.readV y).getLsbD k))
      (fun _ p => p = .reg x) ∧
    PlainEffect (.andReg x y)
      (fun s t => ∀ k, (t.readV x).getLsbD k = ((s.readV x).getLsbD k && (s.readV y).getLsbD k))
      (fun _ p => p = .reg x) ∧
    PlainEffect (.xorReg x y)
      (fun s t => ∀ k, (t.readV x).getLsbD k = ((s.readV x).getLsbD k ^^ (s.readV y).getLsbD k))
      (fun _ p => p = .reg x)

/-! ## Arithmetic with flags -/

/-- 44_arithmetic_flags.md R150: sum modulo 256 and carry, for every pair of registers; VF as destination holds the
carry. -/
def Obligations.AddRegistersSetsCarry : Prop :=
  EncodedAs 0x8004 0xF00F (fun w => .addReg (xOf w) (yOf w)) ∧
  ∀ x y : Reg, PlainEffect (.addReg x y)
    (fun s t =>
      (x ≠ 15 → (t.readV x).toNat = ((s.readV x).toNat + (s.readV y).toNat) % 256) ∧
      t.readV 15 = if 255 < (s.readV x).toNat + (s.readV y).toNat then 1 else 0)
    (fun _ p => p = .reg x ∨ p = .reg 15)

/-- 44_arithmetic_flags.md R151 and R152: difference modulo 256 and not-borrow, both ways round. -/
def Obligations.SubtractionsSetNotBorrow : Prop :=
  EncodedAs 0x8005 0xF00F (fun w => .sub (xOf w) (yOf w)) ∧
  EncodedAs 0x8007 0xF00F (fun w => .subn (xOf w) (yOf w)) ∧
  ∀ x y : Reg,
    PlainEffect (.sub x y)
      (fun s t =>
        (x ≠ 15 → ((t.readV x).toNat : Int) = ((s.readV x).toNat - (s.readV y).toNat : Int) % 256) ∧
        t.readV 15 = if (s.readV y).toNat ≤ (s.readV x).toNat then 1 else 0)
      (fun _ p => p = .reg x ∨ p = .reg 15) ∧
    PlainEffect (.subn x y)
      (fun s t =>
        (x ≠ 15 → ((t.readV x).toNat : Int) = ((s.readV y).toNat - (s.readV x).toNat : Int) % 256) ∧
        t.readV 15 = if (s.readV x).toNat ≤ (s.readV y).toNat then 1 else 0)
      (fun _ p => p = .reg x ∨ p = .reg 15)

/-- 44_arithmetic_flags.md R153 and R154: `V[x]` shifted in place, `y` ignored (the spec's decision D12, log 13), the
flag the bit shifted out (D13 for SHL). -/
def Obligations.ShiftsMoveOneBitIntoTheFlag : Prop :=
  EncodedAs 0x8006 0xF00F (fun w => .shr (xOf w) (yOf w)) ∧
  EncodedAs 0x800E 0xF00F (fun w => .shl (xOf w) (yOf w)) ∧
  ∀ x y : Reg,
    PlainEffect (.shr x y)
      (fun s t => (x ≠ 15 → (t.readV x).toNat = (s.readV x).toNat / 2) ∧
        (t.readV 15).toNat = (s.readV x).toNat % 2)
      (fun _ p => p = .reg x ∨ p = .reg 15) ∧
    PlainEffect (.shl x y)
      (fun s t => (x ≠ 15 → (t.readV x).toNat = 2 * (s.readV x).toNat % 256) ∧
        (t.readV 15).toNat = (s.readV x).toNat / 128)
      (fun _ p => p = .reg x ∨ p = .reg 15)

/-! ## Randomness -/

/-- 45_random.md R161: the draw masked, the draw consumed, for every value of the free byte. -/
def Obligations.RandomByteIsMasked : Prop :=
  EncodedAs 0xC000 0xF000 (fun w => .rnd (xOf w) (kkOf w)) ∧
  ∀ (x : Reg) (kk : Byte), PlainEffect (.rnd x kk)
    (fun s t => t.readV x = Config.drawByte s.rng.seed s.rng.drawn &&& kk ∧ t.readV x &&& ~~~kk = 0 ∧
      t.rng.seed = s.rng.seed ∧ t.rng.drawn = s.rng.drawn + 1)
    (fun _ p => p = .reg x ∨ p = .randomSource)

/-! ## Memory-indexed -/

/-- 46_memory_indexed.md R165. -/
def Obligations.SetIndexRegister : Prop :=
  EncodedAs 0xA000 0xF000 (fun w => .ldI (nnnOf w)) ∧
  ∀ nnn : Addr, PlainEffect (.ldI nnn) (fun _ t => t.I.toNat = nnn.toNat) (fun _ p => p = .index)

/-- 46_memory_indexed.md R166 and R167: no flag, no mask, the wrap at 65536 (the spec's decisions D9 and D20, logs 11 and
18). -/
def Obligations.AddToIndexAndGlyphAddress : Prop :=
  EncodedAs 0xF01E 0xF0FF (fun w => .addI (xOf w)) ∧
  EncodedAs 0xF029 0xF0FF (fun w => .ldF (xOf w)) ∧
  ∀ x : Reg,
    PlainEffect (.addI x) (fun s t => t.I.toNat = (s.I.toNat + (s.readV x).toNat) % 65536)
      (fun _ p => p = .index) ∧
    PlainEffect (.ldF x) (fun s t => t.I.toNat = Config.fontBase + 5 * (s.readV x).toNat) (fun _ p => p = .index)

/-- 46_memory_indexed.md R168: the digits, hundreds first (the spec's decision D34, log 19), the memory check before the
counter's (D24). -/
def Obligations.DecimalDigitsAreStored : Prop :=
  EncodedAs 0xF033 0xF0FF (fun w => .ldB (xOf w)) ∧
  ∀ (x : Reg) (s : State), s.pc.toNat % 2 = 0 → Memory.wf s.mem →
    (4095 < s.I.toNat + 2 → exec (.ldB x) s = .fault (.memoryRange (max s.I.toNat 4096))) ∧
    (s.I.toNat + 2 ≤ 4095 → s.pc.toNat = 4094 → exec (.ldB x) s = .fault (.pcRange 4096)) ∧
    (s.I.toNat + 2 ≤ 4095 → s.pc.toNat ≤ 4092 →
      Completes (.ldB x) s (s.pc.toNat + 2)
        (fun t =>
          (t.mem.read s.I.toNat).toNat = (s.readV x).toNat / 100 ∧
          (t.mem.read (s.I.toNat + 1)).toNat = (s.readV x).toNat / 10 % 10 ∧
          (t.mem.read (s.I.toNat + 2)).toNat = (s.readV x).toNat % 10)
        (fun p => ∃ k, k < 3 ∧ p = .byte (s.I.toNat + k)))

/-- 46_memory_indexed.md R169: the registers `V[0]` to `V[x]` inclusive, `I` unchanged (the spec's decision D15, log
14). -/
def Obligations.BulkStoreWritesTheRegisters : Prop :=
  EncodedAs 0xF055 0xF0FF (fun w => .stRegs (xOf w)) ∧
  ∀ (x : Reg) (s : State), s.pc.toNat % 2 = 0 → Memory.wf s.mem →
    (4095 < s.I.toNat + x.val → exec (.stRegs x) s = .fault (.memoryRange (max s.I.toNat 4096))) ∧
    (s.I.toNat + x.val ≤ 4095 → s.pc.toNat = 4094 → exec (.stRegs x) s = .fault (.pcRange 4096)) ∧
    (s.I.toNat + x.val ≤ 4095 → s.pc.toNat ≤ 4092 →
      Completes (.stRegs x) s (s.pc.toNat + 2)
        (fun t => ∀ r : Reg, r ≤ x → t.mem.read (s.I.toNat + r.val) = s.readV r)
        (fun p => ∃ k, k ≤ x.val ∧ p = .byte (s.I.toNat + k)))

/-- 46_memory_indexed.md R170: the mirror of the bulk store (the spec's decision D15, log 14). -/
def Obligations.BulkLoadReadsTheRegisters : Prop :=
  EncodedAs 0xF065 0xF0FF (fun w => .ldRegs (xOf w)) ∧
  ∀ (x : Reg) (s : State), s.pc.toNat % 2 = 0 →
    (4095 < s.I.toNat + x.val → exec (.ldRegs x) s = .fault (.memoryRange (max s.I.toNat 4096))) ∧
    (s.I.toNat + x.val ≤ 4095 → s.pc.toNat = 4094 → exec (.ldRegs x) s = .fault (.pcRange 4096)) ∧
    (s.I.toNat + x.val ≤ 4095 → s.pc.toNat ≤ 4092 →
      Completes (.ldRegs x) s (s.pc.toNat + 2)
        (fun t => ∀ r : Reg, r ≤ x → t.readV r = s.mem.read (s.I.toNat + r.val))
        (fun p => ∃ r : Reg, r ≤ x ∧ p = .reg r))

/-! ## Display -/

/-- 47_display.md R180 to R182: every cell exclusive-ored with the sprite's bit, VF exactly the collision, `draw` set,
nothing outside the box touched. The bit order, the cleared flag, the edge and `draw` with no change are the spec's
decisions D16, D17 and D36 (log 15). -/
def Obligations.DrawXorsTheSprite : Prop :=
  EncodedAs 0xD000 0xF000 (fun w => .drw (xOf w) (yOf w) (nOf w)) ∧
  ∀ (x y : Reg) (n : Fin 16) (s : State) (px py : Nat),
    px = (s.readV x).toNat → py = (s.readV y).toNat →
    s.pc.toNat % 2 = 0 → s.pc.toNat ≤ 4092 → Pixels.wf s.gfx s.width.toNat s.height.toNat →
    (n.val = 0 ∨ s.I.toNat + n.val - 1 ≤ 4095) → BoxInside s px py n.val →
    Completes (.drw x y n) s (s.pc.toNat + 2)
      (fun t => t.draw = true ∧
        (∀ cx cy, t.gfx.get cx cy = (s.gfx.get cx cy ^^ spriteBit s px py n.val cx cy)) ∧
        (t.readV 15 = 0 ∨ t.readV 15 = 1) ∧
        (t.readV 15 = 1 ↔
          ∃ cx cy, s.gfx.get cx cy = true ∧ spriteBit s px py n.val cx cy = true))
      (fun p => p = .draw ∨ p = .reg 15 ∨ InBox px py n.val p)

/-- 47_display.md R180: the faults of DRW in their order: memory, box, counter (the spec's decisions D16, D24; log
15). -/
def Obligations.DrawFaultsInOrder : Prop :=
  ∀ (x y : Reg) (n : Fin 16) (s : State) (px py : Nat),
    px = (s.readV x).toNat → py = (s.readV y).toNat → s.pc.toNat % 2 = 0 →
    (0 < n.val → 4095 < s.I.toNat + n.val - 1 →
      exec (.drw x y n) s = .fault (.memoryRange (max s.I.toNat 4096))) ∧
    ((n.val = 0 ∨ s.I.toNat + n.val - 1 ≤ 4095) → ¬ BoxInside s px py n.val →
      exec (.drw x y n) s = .fault (.displayRange px py n.val)) ∧
    ((n.val = 0 ∨ s.I.toNat + n.val - 1 ≤ 4095) → BoxInside s px py n.val → s.pc.toNat = 4094 →
      exec (.drw x y n) s = .fault (.pcRange 4096))

/-- 47_display.md R180 (f), the source's property: the same sprite twice restores the buffer exactly, and the second draw
collides wherever the first turned a cell on. -/
def Obligations.DrawingTwiceRestoresTheBuffer : Prop :=
  ∀ (x y : Reg) (n : Fin 16) (s : State) (px py : Nat), x ≠ 15 → y ≠ 15 →
    px = (s.readV x).toNat → py = (s.readV y).toNat →
    s.pc.toNat % 2 = 0 → s.pc.toNat ≤ 4090 → Pixels.wf s.gfx s.width.toNat s.height.toNat →
    (n.val = 0 ∨ s.I.toNat + n.val - 1 ≤ 4095) → BoxInside s px py n.val →
    ∃ t u, exec (.drw x y n) s = .next t ∧ exec (.drw x y n) t = .next u ∧ u.gfx = s.gfx ∧
      (u.readV 15 = 1 ↔ ∃ cx cy, s.gfx.get cx cy = false ∧ spriteBit s px py n.val cx cy = true)

/-! ## Input and timers -/

/-- 48_input_timers.md R190. -/
def Obligations.SkipIfKeyDown : Prop :=
  EncodedAs 0xE09E 0xF0FF (fun w => .skp (xOf w)) ∧
  ∀ (x : Reg) (s : State), s.pc.toNat % 2 = 0 →
    (15 < (s.readV x).toNat → exec (.skp x) s = .fault (.keyRange (s.readV x).toNat)) ∧
    ((s.readV x).toNat ≤ 15 → SkipsWhen (.skp x) s (s.keyDown (s.readV x).toNat = true))

/-- 48_input_timers.md R191: taken when the key is not down (the spec's decision D14, log 16). -/
def Obligations.SkipIfKeyUp : Prop :=
  EncodedAs 0xE0A1 0xF0FF (fun w => .sknp (xOf w)) ∧
  ∀ (x : Reg) (s : State), s.pc.toNat % 2 = 0 →
    (15 < (s.readV x).toNat → exec (.sknp x) s = .fault (.keyRange (s.readV x).toNat)) ∧
    ((s.readV x).toNat ≤ 15 → SkipsWhen (.sknp x) s (s.keyDown (s.readV x).toNat = false))

/-- 48_input_timers.md R192: blocks, names the target, moves `pc` by 2, whatever keys are held (the spec's decision D35,
log 16). -/
def Obligations.KeyWaitBlocks : Prop :=
  EncodedAs 0xF00A 0xF0FF (fun w => .ldK (xOf w)) ∧
  ∀ x : Reg, PlainEffect (.ldK x) (fun _ t => t.blocking = true ∧ t.blockTarget = x)
    (fun _ p => p = .blocking ∨ p = .blockTarget)

/-- 48_input_timers.md R194, R195 and R196. -/
def Obligations.TimerRegistersMove : Prop :=
  EncodedAs 0xF007 0xF0FF (fun w => .ldVxDt (xOf w)) ∧
  EncodedAs 0xF015 0xF0FF (fun w => .ldDt (xOf w)) ∧
  EncodedAs 0xF018 0xF0FF (fun w => .ldSt (xOf w)) ∧
  ∀ x : Reg,
    PlainEffect (.ldVxDt x) (fun s t => t.readV x = s.DT) (fun _ p => p = .reg x) ∧
    PlainEffect (.ldDt x) (fun s t => t.DT = s.readV x) (fun _ p => p = .delayTimer) ∧
    PlainEffect (.ldSt x) (fun s t => t.ST = s.readV x) (fun _ p => p = .soundTimer)

/-! ## Termination -/

/-- 49_termination.md R205 and R206; the no-op's word and halt's mask are the spec's decisions D3 and D4 (log 3). -/
def Obligations.NopAdvancesAndHaltStops : Prop :=
  EncodedAs 0x0000 0xFFFF (fun _ => .nop) ∧
  EncodedAs 0xFFFF 0xFFFF (fun _ => .halt) ∧
  PlainEffect .nop (fun _ _ => True) (fun _ _ => False) ∧
  ∀ s : State, ∃ t, exec .halt s = .next t ∧ t.halted = true ∧ Frame s t (fun p => p = .halted)

/-- 49_termination.md R207: every word that matches no template sets `quit` and changes nothing else, `pc` included,
whatever the word; the Cycle completes at every `pc`. -/
def Obligations.UnknownWordQuits : Prop :=
  (∀ w : Word, (∀ t ∈ catalog, w &&& t.mask ≠ t.pattern) → decode w = .unknown w) ∧
  ∀ (w : Word) (s : State), ∃ t, exec (.unknown w) s = .next t ∧ t.quit = true ∧ Frame s t (fun p => p = .quit)

/-! ## Terminal, dead and blocked machines -/

/-- 60_exceptions.md R222: a terminal machine refuses every Cycle request and keeps its state, and no sequence of events
without Reset makes it run again. -/
def Obligations.TerminalMachineNeverRunsAgain : Prop :=
  ∀ s : State, Terminal s →
    step s = .refused .terminalMachine ∧ Event.after .cycle s = s ∧
    ∀ es : List Event, Event.reset ∉ es → ∃ q, step (Event.run es s) = .refused q

/-- 60_exceptions.md R217: once a fault is recorded a Cycle is refused and no event but Reset changes anything (the
spec's decision D23, log 10); and a Cycle that faults leaves the state as it was with the fault recorded (R215). -/
def Obligations.DeadMachineNeverChanges : Prop :=
  (∀ s : State, s.fault ≠ none → step s = .refused .deadMachine ∧
    ∀ es : List Event, Event.reset ∉ es → Event.run es s = s) ∧
  ∀ (s : State) (f : Fault), step s = .fault f →
    (Event.after .cycle s).fault = some f ∧ Frame s (Event.after .cycle s) (fun p => p = .faultRecord)

/-- 40_pipeline.md R101 and 60_exceptions.md R244: while the machine is blocked a Cycle request changes nothing, and
neither it nor SetKeys, TimerTick or ClearDraw lifts the hold or moves `pc`, a register, `I`, the stack or the memory (the
spec's decision D25, log 20). -/
def Obligations.BlockedMachineWaits : Prop :=
  ∀ s : State, s.fault = none → s.quit = false → s.halted = false → s.blocking = true →
    Event.after .cycle s = s ∧ cycleResult s = .blocked ∧
    ∀ es : List Event, (∀ e ∈ es, e = .cycle ∨ (∃ ks, e = .setKeys ks) ∨ e = .timerTick ∨ e = .clearDraw) →
      Frame s (Event.run es s) (fun p => p = .delayTimer ∨ p = .soundTimer ∨ p = .draw ∨ ∃ k, p = .key k)

/-! ## Host events -/

/-- 60_exceptions.md R235 and R238: SetKeys and ClearDraw on a machine with no fault recorded; and no Cycle clears
`draw`. -/
def Obligations.SetKeysAndClearDraw : Prop :=
  ∀ (s : State) (ks : Vector Bool 16), s.fault = none →
    (∀ k : Fin 16, (Event.after (.setKeys ks) s).keyDown k.val = ks[k.val]) ∧
    Frame s (Event.after (.setKeys ks) s) (fun p => ∃ k, p = .key k) ∧
    (Event.after .clearDraw s).draw = false ∧
    Frame s (Event.after .clearDraw s) (fun p => p = .draw) ∧
    (s.draw = true → (Event.after .cycle s).draw = true)

/-- 60_exceptions.md R237: both timers count down by one and stop at zero (the spec's decision D27, log 22). -/
def Obligations.TimerTickCountsDown : Prop :=
  ∀ s : State, s.fault = none →
    (Event.after .timerTick s).DT.toNat = s.DT.toNat - 1 ∧
    (Event.after .timerTick s).ST.toNat = s.ST.toNat - 1 ∧
    Frame s (Event.after .timerTick s) (fun p => p = .delayTimer ∨ p = .soundTimer)

/-- 48_input_timers.md R193: the lowest held key goes to the target and the hold ends; with no key held, or not blocked,
nothing changes (the spec's decisions D19 and D35, log 16). -/
def Obligations.ResolveKeyTakesTheLowestHeldKey : Prop :=
  ∀ s : State, s.fault = none →
    (s.blocking = false → Event.after .resolveKey s = s) ∧
    ((∀ k : Fin 16, s.keyDown k.val = false) → Event.after .resolveKey s = s) ∧
    (∀ k : Fin 16, s.blocking = true → s.keyDown k.val = true →
      (∀ j : Fin 16, j < k → s.keyDown j.val = false) →
      ((Event.after .resolveKey s).readV s.blockTarget).toNat = k.val ∧
      (Event.after .resolveKey s).blocking = false ∧
      Frame s (Event.after .resolveKey s) (fun p => p = .blocking ∨ p = .reg s.blockTarget))

/-- The source's scenario (V307 of 95_test_vectors.md): a key-wait, a report of one key and the resolve step put the key
in the target register, end the hold, and leave `pc` at the +2 of the issue. -/
def Obligations.KeyWaitCompletesWithoutMovingPc : Prop :=
  ∀ (x : Reg) (k : Fin 16) (s : State), s.fault = none → s.pc.toNat % 2 = 0 → s.pc.toNat ≤ 4092 →
    ∃ t, exec (.ldK x) s = .next t ∧
      ∀ u, u = Event.run [.setKeys (onlyKey k), .resolveKey] t →
        (u.readV x).toNat = k.val ∧ u.blocking = false ∧ u.pc.toNat = s.pc.toNat + 2

/-- 70_reset_and_hazards.md R257: the image is copied whole at ENTRY or does not fit (the spec's decision D26, log 17). -/
def Obligations.LoadCopiesTheImage : Prop :=
  ∀ (bytes : List Byte) (s : State), s.fault = none → s.loadEnabled = true → Memory.wf s.mem →
    (4096 < Config.entry + bytes.length → load bytes s = .fault (.memoryRange 4096)) ∧
    (Config.entry + bytes.length ≤ 4096 →
      ∃ t, load bytes s = .next t ∧
        (∀ k, k < bytes.length → t.mem.read (Config.entry + k) = bytes.getD k 0) ∧
        Frame s t (fun p => p = .loadWindow ∨ (∃ k, k < bytes.length ∧ p = .byte (Config.entry + k)) ∨
          p = .width ∨ p = .height ∨ (∃ cx cy, p = .pixel cx cy) ∨
          p = .reg Config.geomRegW ∨ p = .reg Config.geomRegH))

/-- 70_reset_and_hazards.md R258 and R259: the geometry is that of the trailing header when its two sentinel bytes are
there, and is left alone with its registers otherwise (the spec's decision D26, log 17; the sentinel and the registers are
OPEN, so this holds for every value of them, log 2). -/
def Obligations.LoadAppliesTheHeader : Prop :=
  ∀ (bytes : List Byte) (s t : State) (h : Nat → Byte), s.fault = none → load bytes s = .next t →
    (∀ k, h k = bytes.getD (bytes.length - 16 + k) 0) →
    (16 < bytes.length ∧ (h 0, h 1) = Config.headerSentinel →
      t.width = h 6 ∧ t.height = h 7 ∧ (∀ cx cy, t.gfx.get cx cy = false) ∧
      t.readV Config.geomRegW = h 6 ∧ t.readV Config.geomRegH = h 7) ∧
    (¬ (16 < bytes.length ∧ (h 0, h 1) = Config.headerSentinel) →
      t.width = s.width ∧ t.height = s.height ∧ t.gfx = s.gfx ∧ ∀ x, t.readV x = s.readV x)

/-- 70_reset_and_hazards.md R256: after a Load, or after a Cycle that ran, no later Load changes anything until a Reset
(the spec's decision D26; that such a Load is refused is the model's reading, log 9). -/
def Obligations.LoadComesOnce : Prop :=
  ∀ s t : State, s.fault = none →
    ((∃ bytes, load bytes s = .next t) ∨ (s.Running ∧ step s = .next t)) →
    ∀ (es : List Event) (bytes : List Byte), Event.reset ∉ es →
      Event.after (.load bytes) (Event.run es t) = Event.run es t
end

