-- ==== Sys2Proof/Laws/Memory.lean ====
section
/-! SUPPORT. The laws of the memory: a read after a write, the canonical form, runs of bytes, and what each checked access
can answer. -/

namespace Sys2Proof.Machine

namespace Memory

theorem read_cons (k a : Nat) (b : Byte) (m : Memory) :
    read ((k, b) :: m) a = if a = k then b else read m a := rfl

theorem read_of_lt {m : Memory} {a : Nat} (h : ∀ c ∈ m, a < c.1) : read m a = unlisted a := by
  induction m with
  | nil => rfl
  | cons c m ih =>
    obtain ⟨k, b⟩ := c
    have hk : a < k := h (k, b) (by simp)
    rw [read_cons, if_neg (by omega), ih fun d hd => h d (by simp [hd])]

theorem read_entry_ne (m : Memory) {a a' : Nat} (b : Byte) (h : a' ≠ a) :
    read (entry a b m) a' = read m a' := by
  unfold entry
  split
  · rfl
  · rw [read_cons, if_neg h]

theorem read_entry_same {m : Memory} {a : Nat} (b : Byte) (h : ∀ c ∈ m, a < c.1) :
    read (entry a b m) a = b := by
  unfold entry
  split
  · rw [read_of_lt h]; exact Eq.symm ‹_›
  · simp [read_cons]

theorem read_insert_ne (m : Memory) {a a' : Nat} (b : Byte) (h : a' ≠ a) :
    read (insert a b m) a' = read m a' := by
  induction m with
  | nil => simp [insert, read_entry_ne _ _ h]
  | cons c m ih =>
    obtain ⟨k, d⟩ := c
    unfold insert
    split
    · rw [read_entry_ne _ _ h]
    · split
      · subst k; rw [read_entry_ne _ _ h, read_cons, if_neg h]
      · simp [read_cons, ih]

theorem read_insert_same {m : Memory} (hm : m.Pairwise fun c d => c.1 < d.1) (a : Nat) (b : Byte) :
    read (insert a b m) a = b := by
  induction m with
  | nil => exact read_entry_same b (by simp)
  | cons c m ih =>
    obtain ⟨k, d⟩ := c
    obtain ⟨hk, hm⟩ := List.pairwise_cons.mp hm
    unfold insert
    split
    · refine read_entry_same b fun e he => ?_
      rcases List.mem_cons.mp he with rfl | he
      · assumption
      · have := hk e he; omega
    · split
      · subst k; exact read_entry_same b hk
      · rw [read_cons, if_neg (by assumption), ih hm]

theorem mem_entry {a : Nat} {b : Byte} {m : Memory} {c : Host.Cell} (h : c ∈ entry a b m) :
    (c = (a, b) ∧ b ≠ unlisted a) ∨ c ∈ m := by
  unfold entry at h
  split at h
  · exact .inr h
  · rcases List.mem_cons.mp h with h | h
    · exact .inl ⟨h, ‹_›⟩
    · exact .inr h

theorem mem_insert {a : Nat} {b : Byte} {m : Memory} {c : Host.Cell} (h : c ∈ insert a b m) :
    (c = (a, b) ∧ b ≠ unlisted a) ∨ c ∈ m := by
  induction m with
  | nil => exact mem_entry h
  | cons d m ih =>
    obtain ⟨k, d⟩ := d
    unfold insert at h
    split at h
    · exact mem_entry h
    · split at h
      · exact (mem_entry h).imp id (List.mem_cons_of_mem _)
      · rcases List.mem_cons.mp h with rfl | h
        · exact .inr (by simp)
        · exact (ih h).imp id (List.mem_cons_of_mem _)

theorem pairwise_entry {a : Nat} {b : Byte} {m : Memory} (h : ∀ c ∈ m, a < c.1)
    (hm : m.Pairwise fun c d => c.1 < d.1) : (entry a b m).Pairwise fun c d => c.1 < d.1 := by
  unfold entry
  split
  · exact hm
  · exact List.pairwise_cons.mpr ⟨h, hm⟩

theorem pairwise_insert {a : Nat} {b : Byte} {m : Memory} (hm : m.Pairwise fun c d => c.1 < d.1) :
    (insert a b m).Pairwise fun c d => c.1 < d.1 := by
  induction m with
  | nil => exact pairwise_entry (by simp) .nil
  | cons c m ih =>
    obtain ⟨k, d⟩ := c
    obtain ⟨hk, hm'⟩ := List.pairwise_cons.mp hm
    unfold insert
    split
    · refine pairwise_entry (fun e he => ?_) hm
      rcases List.mem_cons.mp he with rfl | he
      · assumption
      · have := hk e he; omega
    · split
      · subst k; exact pairwise_entry hk hm'
      · refine List.pairwise_cons.mpr ⟨fun e he => ?_, ih hm'⟩
        rcases mem_insert he with ⟨rfl, -⟩ | he
        · show k < a; omega
        · exact hk e he

theorem wf_nil : wf [] := by simp [wf]

theorem wf_insert {a : Nat} {b : Byte} {m : Memory} (ha : a < Config.memSize) (hm : wf m) :
    wf (insert a b m) := by
  refine ⟨pairwise_insert hm.1, fun c hc => ?_⟩
  rcases mem_insert hc with ⟨rfl, h⟩ | hc
  · exact ⟨ha, h⟩
  · exact hm.2 c hc

/-- Every write keeps the canonical form. -/
theorem wf_write {m : Memory} (hm : wf m) (a : Nat) (b : Byte) : wf (write m a b) := by
  unfold write
  split
  · exact wf_insert ‹_› hm
  · exact hm

theorem read_write_same {m : Memory} (hm : wf m) {a : Nat} (ha : a < Config.memSize) (b : Byte) :
    read (write m a b) a = b := by
  rw [write, if_pos ha, read_insert_same hm.1]

theorem read_write_ne (m : Memory) {a a' : Nat} (b : Byte) (h : a' ≠ a) :
    read (write m a b) a' = read m a' := by
  unfold write
  split
  · exact read_insert_ne m b h
  · rfl

theorem wf_writeBytes {m : Memory} (hm : wf m) (a : Nat) (bs : List Byte) : wf (writeBytes m a bs) := by
  induction bs generalizing m a with
  | nil => exact hm
  | cons b bs ih => exact ih (wf_write hm a b) (a + 1)

/-- A run of bytes leaves every address outside it alone. -/
theorem read_writeBytes_outside (m : Memory) (a : Nat) (bs : List Byte) {a' : Nat}
    (h : ∀ k < bs.length, a' ≠ a + k) : read (writeBytes m a bs) a' = read m a' := by
  induction bs generalizing m a with
  | nil => rfl
  | cons b bs ih =>
    have h0 : a' ≠ a := by simpa using h 0 (by simp)
    rw [writeBytes, ih, read_write_ne _ _ h0]
    intro k hk
    have := h (k + 1) (by simpa using hk)
    omega

/-- A run of bytes inside the memory is what a read finds there. -/
theorem read_writeBytes_inside {m : Memory} (hm : wf m) {a : Nat} {bs : List Byte}
    (ha : a + bs.length ≤ Config.memSize) {k : Nat} (hk : k < bs.length) (d : Byte) :
    read (writeBytes m a bs) (a + k) = bs.getD k d := by
  induction bs generalizing m a k with
  | nil => simp at hk
  | cons b bs ih =>
    simp only [List.length_cons] at ha hk
    cases k with
    | zero =>
      rw [writeBytes, read_writeBytes_outside _ _ _ (by intro k _; omega)]
      simpa using read_write_same hm (by omega) b
    | succ k =>
      have := ih (wf_write hm a b) (a := a + 1) (k := k) (by omega) (by omega)
      rw [writeBytes, show a + (k + 1) = a + 1 + k by omega, this]
      simp

@[simp] theorem length_readBytes (m : Memory) (a n : Nat) : (readBytes m a n).length = n := by
  simp [readBytes]

theorem getD_readBytes (m : Memory) (a : Nat) {n k : Nat} (hk : k < n) (d : Byte) :
    (readBytes m a n).getD k d = read m (a + k) := by
  simp [readBytes, List.getD, hk]

theorem readBytes_congr {m m' : Memory} {a n : Nat} (h : ∀ k < n, read m' (a + k) = read m (a + k)) :
    readBytes m' a n = readBytes m a n := by
  simp only [readBytes]
  exact List.map_congr_left fun k hk => h k (List.mem_range.mp hk)

end Memory

theorem outOfRange_eq_false_iff {a n : Nat} :
    outOfRange a n = false ↔ n = 0 ∨ a + n ≤ Config.memSize := by
  have : 0 < Config.memSize := by decide
  simp only [outOfRange, decide_eq_false_iff_not]
  omega

/-- What `MemRead` can answer (20_memory.md R64): the bytes, when every address is below 4096. -/
theorem memRead_eq_ok_iff {a n : Nat} {s : State} {bs : List Byte} :
    memRead a n s = .ok bs ↔ outOfRange a n = false ∧ bs = s.mem.readBytes a n := by
  unfold memRead
  cases outOfRange a n <;> simp [@eq_comm _ bs]

theorem memRead_eq_error_iff {a n : Nat} {s : State} {f : Fault} :
    memRead a n s = .error f ↔ outOfRange a n = true ∧ f = rangeFault a := by
  unfold memRead
  cases outOfRange a n <;> simp [@eq_comm _ f]

/-- What `MemWrite` can answer (20_memory.md R65): the state with the bytes written, when every address is below
4096. -/
theorem memWrite_eq_ok_iff {a : Nat} {bs : List Byte} {s t : State} :
    memWrite a bs s = .ok t ↔
      outOfRange a bs.length = false ∧ t = s.withMem (s.mem.writeBytes a bs) := by
  unfold memWrite
  cases outOfRange a bs.length <;> simp [@eq_comm _ t]

theorem memWrite_eq_error_iff {a : Nat} {bs : List Byte} {s : State} {f : Fault} :
    memWrite a bs s = .error f ↔ outOfRange a bs.length = true ∧ f = rangeFault a := by
  unfold memWrite
  cases outOfRange a bs.length <;> simp [@eq_comm _ f]

/-- The memory after reset is in canonical form. -/
theorem wf_reset_mem : Memory.wf State.reset.mem := Memory.wf_nil

/-- A checked write keeps the canonical form. -/
theorem wf_memWrite {a : Nat} {bs : List Byte} {s t : State} (hm : Memory.wf s.mem)
    (h : memWrite a bs s = .ok t) : Memory.wf t.mem := by
  obtain ⟨-, rfl⟩ := memWrite_eq_ok_iff.mp h
  exact Memory.wf_writeBytes hm a bs

/-- Placing a word at `pc` keeps the canonical form. -/
theorem wf_storeAtPc {s : State} (hm : Memory.wf s.mem) (w : Word) : Memory.wf (storeAtPc w s).mem :=
  Memory.wf_writeBytes hm _ _

/-- The fetch (40_pipeline.md R105): the big-endian word at an address of at most 4094. -/
theorem fetch_eq_ok {s : State} (h : s.pc.toNat ≤ 4094) :
    fetch s = .ok (wordOfBytes (s.mem.read s.pc.toNat) (s.mem.read (s.pc.toNat + 1))) := by
  have hr : outOfRange s.pc.toNat 2 = false :=
    outOfRange_eq_false_iff.mpr (.inr (by simp only [Config.memSize]; omega))
  rw [fetch, memRead_eq_ok_iff.mpr ⟨hr, rfl⟩]
  simp [Except.map, Memory.readBytes, List.range_succ]

end Sys2Proof.Machine
end

