-- ==== Sys2Proof/Laws/State.lean ====
section
/-! SUPPORT. The small lemmas of the state: each field after each update, each accessor after each update, and the laws of
the register file and the call stack. -/

namespace Sys2Proof.Machine

section withV

variable (s : State) (v : Vector Byte 16)

@[simp] theorem State.withV_V : (s.withV v).V = v := rfl
@[simp] theorem State.withV_pc : (s.withV v).pc = s.pc := rfl
@[simp] theorem State.withV_I : (s.withV v).I = s.I := rfl
@[simp] theorem State.withV_sp : (s.withV v).sp = s.sp := rfl
@[simp] theorem State.withV_stack : (s.withV v).stack = s.stack := rfl
@[simp] theorem State.withV_mem : (s.withV v).mem = s.mem := rfl
@[simp] theorem State.withV_gfx : (s.withV v).gfx = s.gfx := rfl
@[simp] theorem State.withV_width : (s.withV v).width = s.width := rfl
@[simp] theorem State.withV_height : (s.withV v).height = s.height := rfl
@[simp] theorem State.withV_DT : (s.withV v).DT = s.DT := rfl
@[simp] theorem State.withV_ST : (s.withV v).ST = s.ST := rfl
@[simp] theorem State.withV_keys : (s.withV v).keys = s.keys := rfl
@[simp] theorem State.withV_blocking : (s.withV v).blocking = s.blocking := rfl
@[simp] theorem State.withV_blockTarget : (s.withV v).blockTarget = s.blockTarget := rfl
@[simp] theorem State.withV_draw : (s.withV v).draw = s.draw := rfl
@[simp] theorem State.withV_quit : (s.withV v).quit = s.quit := rfl
@[simp] theorem State.withV_halted : (s.withV v).halted = s.halted := rfl
@[simp] theorem State.withV_rng : (s.withV v).rng = s.rng := rfl
@[simp] theorem State.withV_fault : (s.withV v).fault = s.fault := rfl
@[simp] theorem State.withV_loadEnabled : (s.withV v).loadEnabled = s.loadEnabled := rfl
@[simp] theorem State.withV_stackEntry (k : Fin 16) : (s.withV v).stackEntry k = s.stackEntry k := rfl
@[simp] theorem State.withV_keyDown (k : Nat) : (s.withV v).keyDown k = s.keyDown k := rfl

end withV

section withPc

variable (s : State) (v : Addr)

@[simp] theorem State.withPc_V : (s.withPc v).V = s.V := rfl
@[simp] theorem State.withPc_pc : (s.withPc v).pc = v := rfl
@[simp] theorem State.withPc_I : (s.withPc v).I = s.I := rfl
@[simp] theorem State.withPc_sp : (s.withPc v).sp = s.sp := rfl
@[simp] theorem State.withPc_stack : (s.withPc v).stack = s.stack := rfl
@[simp] theorem State.withPc_mem : (s.withPc v).mem = s.mem := rfl
@[simp] theorem State.withPc_gfx : (s.withPc v).gfx = s.gfx := rfl
@[simp] theorem State.withPc_width : (s.withPc v).width = s.width := rfl
@[simp] theorem State.withPc_height : (s.withPc v).height = s.height := rfl
@[simp] theorem State.withPc_DT : (s.withPc v).DT = s.DT := rfl
@[simp] theorem State.withPc_ST : (s.withPc v).ST = s.ST := rfl
@[simp] theorem State.withPc_keys : (s.withPc v).keys = s.keys := rfl
@[simp] theorem State.withPc_blocking : (s.withPc v).blocking = s.blocking := rfl
@[simp] theorem State.withPc_blockTarget : (s.withPc v).blockTarget = s.blockTarget := rfl
@[simp] theorem State.withPc_draw : (s.withPc v).draw = s.draw := rfl
@[simp] theorem State.withPc_quit : (s.withPc v).quit = s.quit := rfl
@[simp] theorem State.withPc_halted : (s.withPc v).halted = s.halted := rfl
@[simp] theorem State.withPc_rng : (s.withPc v).rng = s.rng := rfl
@[simp] theorem State.withPc_fault : (s.withPc v).fault = s.fault := rfl
@[simp] theorem State.withPc_loadEnabled : (s.withPc v).loadEnabled = s.loadEnabled := rfl
@[simp] theorem State.withPc_readV (x : Reg) : (s.withPc v).readV x = s.readV x := rfl
@[simp] theorem State.withPc_stackEntry (k : Fin 16) : (s.withPc v).stackEntry k = s.stackEntry k := rfl
@[simp] theorem State.withPc_keyDown (k : Nat) : (s.withPc v).keyDown k = s.keyDown k := rfl

end withPc

section withI

variable (s : State) (v : BitVec Config.indexWidth)

@[simp] theorem State.withI_V : (s.withI v).V = s.V := rfl
@[simp] theorem State.withI_pc : (s.withI v).pc = s.pc := rfl
@[simp] theorem State.withI_I : (s.withI v).I = v := rfl
@[simp] theorem State.withI_sp : (s.withI v).sp = s.sp := rfl
@[simp] theorem State.withI_stack : (s.withI v).stack = s.stack := rfl
@[simp] theorem State.withI_mem : (s.withI v).mem = s.mem := rfl
@[simp] theorem State.withI_gfx : (s.withI v).gfx = s.gfx := rfl
@[simp] theorem State.withI_width : (s.withI v).width = s.width := rfl
@[simp] theorem State.withI_height : (s.withI v).height = s.height := rfl
@[simp] theorem State.withI_DT : (s.withI v).DT = s.DT := rfl
@[simp] theorem State.withI_ST : (s.withI v).ST = s.ST := rfl
@[simp] theorem State.withI_keys : (s.withI v).keys = s.keys := rfl
@[simp] theorem State.withI_blocking : (s.withI v).blocking = s.blocking := rfl
@[simp] theorem State.withI_blockTarget : (s.withI v).blockTarget = s.blockTarget := rfl
@[simp] theorem State.withI_draw : (s.withI v).draw = s.draw := rfl
@[simp] theorem State.withI_quit : (s.withI v).quit = s.quit := rfl
@[simp] theorem State.withI_halted : (s.withI v).halted = s.halted := rfl
@[simp] theorem State.withI_rng : (s.withI v).rng = s.rng := rfl
@[simp] theorem State.withI_fault : (s.withI v).fault = s.fault := rfl
@[simp] theorem State.withI_loadEnabled : (s.withI v).loadEnabled = s.loadEnabled := rfl
@[simp] theorem State.withI_readV (x : Reg) : (s.withI v).readV x = s.readV x := rfl
@[simp] theorem State.withI_stackEntry (k : Fin 16) : (s.withI v).stackEntry k = s.stackEntry k := rfl
@[simp] theorem State.withI_keyDown (k : Nat) : (s.withI v).keyDown k = s.keyDown k := rfl

end withI

section withSp

variable (s : State) (v : Fin 17)

@[simp] theorem State.withSp_V : (s.withSp v).V = s.V := rfl
@[simp] theorem State.withSp_pc : (s.withSp v).pc = s.pc := rfl
@[simp] theorem State.withSp_I : (s.withSp v).I = s.I := rfl
@[simp] theorem State.withSp_sp : (s.withSp v).sp = v := rfl
@[simp] theorem State.withSp_stack : (s.withSp v).stack = s.stack := rfl
@[simp] theorem State.withSp_mem : (s.withSp v).mem = s.mem := rfl
@[simp] theorem State.withSp_gfx : (s.withSp v).gfx = s.gfx := rfl
@[simp] theorem State.withSp_width : (s.withSp v).width = s.width := rfl
@[simp] theorem State.withSp_height : (s.withSp v).height = s.height := rfl
@[simp] theorem State.withSp_DT : (s.withSp v).DT = s.DT := rfl
@[simp] theorem State.withSp_ST : (s.withSp v).ST = s.ST := rfl
@[simp] theorem State.withSp_keys : (s.withSp v).keys = s.keys := rfl
@[simp] theorem State.withSp_blocking : (s.withSp v).blocking = s.blocking := rfl
@[simp] theorem State.withSp_blockTarget : (s.withSp v).blockTarget = s.blockTarget := rfl
@[simp] theorem State.withSp_draw : (s.withSp v).draw = s.draw := rfl
@[simp] theorem State.withSp_quit : (s.withSp v).quit = s.quit := rfl
@[simp] theorem State.withSp_halted : (s.withSp v).halted = s.halted := rfl
@[simp] theorem State.withSp_rng : (s.withSp v).rng = s.rng := rfl
@[simp] theorem State.withSp_fault : (s.withSp v).fault = s.fault := rfl
@[simp] theorem State.withSp_loadEnabled : (s.withSp v).loadEnabled = s.loadEnabled := rfl
@[simp] theorem State.withSp_readV (x : Reg) : (s.withSp v).readV x = s.readV x := rfl
@[simp] theorem State.withSp_stackEntry (k : Fin 16) : (s.withSp v).stackEntry k = s.stackEntry k := rfl
@[simp] theorem State.withSp_keyDown (k : Nat) : (s.withSp v).keyDown k = s.keyDown k := rfl

end withSp

section withStack

variable (s : State) (v : Vector Addr 16)

@[simp] theorem State.withStack_V : (s.withStack v).V = s.V := rfl
@[simp] theorem State.withStack_pc : (s.withStack v).pc = s.pc := rfl
@[simp] theorem State.withStack_I : (s.withStack v).I = s.I := rfl
@[simp] theorem State.withStack_sp : (s.withStack v).sp = s.sp := rfl
@[simp] theorem State.withStack_stack : (s.withStack v).stack = v := rfl
@[simp] theorem State.withStack_mem : (s.withStack v).mem = s.mem := rfl
@[simp] theorem State.withStack_gfx : (s.withStack v).gfx = s.gfx := rfl
@[simp] theorem State.withStack_width : (s.withStack v).width = s.width := rfl
@[simp] theorem State.withStack_height : (s.withStack v).height = s.height := rfl
@[simp] theorem State.withStack_DT : (s.withStack v).DT = s.DT := rfl
@[simp] theorem State.withStack_ST : (s.withStack v).ST = s.ST := rfl
@[simp] theorem State.withStack_keys : (s.withStack v).keys = s.keys := rfl
@[simp] theorem State.withStack_blocking : (s.withStack v).blocking = s.blocking := rfl
@[simp] theorem State.withStack_blockTarget : (s.withStack v).blockTarget = s.blockTarget := rfl
@[simp] theorem State.withStack_draw : (s.withStack v).draw = s.draw := rfl
@[simp] theorem State.withStack_quit : (s.withStack v).quit = s.quit := rfl
@[simp] theorem State.withStack_halted : (s.withStack v).halted = s.halted := rfl
@[simp] theorem State.withStack_rng : (s.withStack v).rng = s.rng := rfl
@[simp] theorem State.withStack_fault : (s.withStack v).fault = s.fault := rfl
@[simp] theorem State.withStack_loadEnabled : (s.withStack v).loadEnabled = s.loadEnabled := rfl
@[simp] theorem State.withStack_readV (x : Reg) : (s.withStack v).readV x = s.readV x := rfl
@[simp] theorem State.withStack_keyDown (k : Nat) : (s.withStack v).keyDown k = s.keyDown k := rfl

end withStack

section withMem

variable (s : State) (v : Memory)

@[simp] theorem State.withMem_V : (s.withMem v).V = s.V := rfl
@[simp] theorem State.withMem_pc : (s.withMem v).pc = s.pc := rfl
@[simp] theorem State.withMem_I : (s.withMem v).I = s.I := rfl
@[simp] theorem State.withMem_sp : (s.withMem v).sp = s.sp := rfl
@[simp] theorem State.withMem_stack : (s.withMem v).stack = s.stack := rfl
@[simp] theorem State.withMem_mem : (s.withMem v).mem = v := rfl
@[simp] theorem State.withMem_gfx : (s.withMem v).gfx = s.gfx := rfl
@[simp] theorem State.withMem_width : (s.withMem v).width = s.width := rfl
@[simp] theorem State.withMem_height : (s.withMem v).height = s.height := rfl
@[simp] theorem State.withMem_DT : (s.withMem v).DT = s.DT := rfl
@[simp] theorem State.withMem_ST : (s.withMem v).ST = s.ST := rfl
@[simp] theorem State.withMem_keys : (s.withMem v).keys = s.keys := rfl
@[simp] theorem State.withMem_blocking : (s.withMem v).blocking = s.blocking := rfl
@[simp] theorem State.withMem_blockTarget : (s.withMem v).blockTarget = s.blockTarget := rfl
@[simp] theorem State.withMem_draw : (s.withMem v).draw = s.draw := rfl
@[simp] theorem State.withMem_quit : (s.withMem v).quit = s.quit := rfl
@[simp] theorem State.withMem_halted : (s.withMem v).halted = s.halted := rfl
@[simp] theorem State.withMem_rng : (s.withMem v).rng = s.rng := rfl
@[simp] theorem State.withMem_fault : (s.withMem v).fault = s.fault := rfl
@[simp] theorem State.withMem_loadEnabled : (s.withMem v).loadEnabled = s.loadEnabled := rfl
@[simp] theorem State.withMem_readV (x : Reg) : (s.withMem v).readV x = s.readV x := rfl
@[simp] theorem State.withMem_stackEntry (k : Fin 16) : (s.withMem v).stackEntry k = s.stackEntry k := rfl
@[simp] theorem State.withMem_keyDown (k : Nat) : (s.withMem v).keyDown k = s.keyDown k := rfl

end withMem

section withGfx

variable (s : State) (v : Pixels)

@[simp] theorem State.withGfx_V : (s.withGfx v).V = s.V := rfl
@[simp] theorem State.withGfx_pc : (s.withGfx v).pc = s.pc := rfl
@[simp] theorem State.withGfx_I : (s.withGfx v).I = s.I := rfl
@[simp] theorem State.withGfx_sp : (s.withGfx v).sp = s.sp := rfl
@[simp] theorem State.withGfx_stack : (s.withGfx v).stack = s.stack := rfl
@[simp] theorem State.withGfx_mem : (s.withGfx v).mem = s.mem := rfl
@[simp] theorem State.withGfx_gfx : (s.withGfx v).gfx = v := rfl
@[simp] theorem State.withGfx_width : (s.withGfx v).width = s.width := rfl
@[simp] theorem State.withGfx_height : (s.withGfx v).height = s.height := rfl
@[simp] theorem State.withGfx_DT : (s.withGfx v).DT = s.DT := rfl
@[simp] theorem State.withGfx_ST : (s.withGfx v).ST = s.ST := rfl
@[simp] theorem State.withGfx_keys : (s.withGfx v).keys = s.keys := rfl
@[simp] theorem State.withGfx_blocking : (s.withGfx v).blocking = s.blocking := rfl
@[simp] theorem State.withGfx_blockTarget : (s.withGfx v).blockTarget = s.blockTarget := rfl
@[simp] theorem State.withGfx_draw : (s.withGfx v).draw = s.draw := rfl
@[simp] theorem State.withGfx_quit : (s.withGfx v).quit = s.quit := rfl
@[simp] theorem State.withGfx_halted : (s.withGfx v).halted = s.halted := rfl
@[simp] theorem State.withGfx_rng : (s.withGfx v).rng = s.rng := rfl
@[simp] theorem State.withGfx_fault : (s.withGfx v).fault = s.fault := rfl
@[simp] theorem State.withGfx_loadEnabled : (s.withGfx v).loadEnabled = s.loadEnabled := rfl
@[simp] theorem State.withGfx_readV (x : Reg) : (s.withGfx v).readV x = s.readV x := rfl
@[simp] theorem State.withGfx_stackEntry (k : Fin 16) : (s.withGfx v).stackEntry k = s.stackEntry k := rfl
@[simp] theorem State.withGfx_keyDown (k : Nat) : (s.withGfx v).keyDown k = s.keyDown k := rfl

end withGfx

section withWidth

variable (s : State) (v : Byte)

@[simp] theorem State.withWidth_V : (s.withWidth v).V = s.V := rfl
@[simp] theorem State.withWidth_pc : (s.withWidth v).pc = s.pc := rfl
@[simp] theorem State.withWidth_I : (s.withWidth v).I = s.I := rfl
@[simp] theorem State.withWidth_sp : (s.withWidth v).sp = s.sp := rfl
@[simp] theorem State.withWidth_stack : (s.withWidth v).stack = s.stack := rfl
@[simp] theorem State.withWidth_mem : (s.withWidth v).mem = s.mem := rfl
@[simp] theorem State.withWidth_gfx : (s.withWidth v).gfx = s.gfx := rfl
@[simp] theorem State.withWidth_width : (s.withWidth v).width = v := rfl
@[simp] theorem State.withWidth_height : (s.withWidth v).height = s.height := rfl
@[simp] theorem State.withWidth_DT : (s.withWidth v).DT = s.DT := rfl
@[simp] theorem State.withWidth_ST : (s.withWidth v).ST = s.ST := rfl
@[simp] theorem State.withWidth_keys : (s.withWidth v).keys = s.keys := rfl
@[simp] theorem State.withWidth_blocking : (s.withWidth v).blocking = s.blocking := rfl
@[simp] theorem State.withWidth_blockTarget : (s.withWidth v).blockTarget = s.blockTarget := rfl
@[simp] theorem State.withWidth_draw : (s.withWidth v).draw = s.draw := rfl
@[simp] theorem State.withWidth_quit : (s.withWidth v).quit = s.quit := rfl
@[simp] theorem State.withWidth_halted : (s.withWidth v).halted = s.halted := rfl
@[simp] theorem State.withWidth_rng : (s.withWidth v).rng = s.rng := rfl
@[simp] theorem State.withWidth_fault : (s.withWidth v).fault = s.fault := rfl
@[simp] theorem State.withWidth_loadEnabled : (s.withWidth v).loadEnabled = s.loadEnabled := rfl
@[simp] theorem State.withWidth_readV (x : Reg) : (s.withWidth v).readV x = s.readV x := rfl
@[simp] theorem State.withWidth_stackEntry (k : Fin 16) : (s.withWidth v).stackEntry k = s.stackEntry k := rfl
@[simp] theorem State.withWidth_keyDown (k : Nat) : (s.withWidth v).keyDown k = s.keyDown k := rfl

end withWidth

section withHeight

variable (s : State) (v : Byte)

@[simp] theorem State.withHeight_V : (s.withHeight v).V = s.V := rfl
@[simp] theorem State.withHeight_pc : (s.withHeight v).pc = s.pc := rfl
@[simp] theorem State.withHeight_I : (s.withHeight v).I = s.I := rfl
@[simp] theorem State.withHeight_sp : (s.withHeight v).sp = s.sp := rfl
@[simp] theorem State.withHeight_stack : (s.withHeight v).stack = s.stack := rfl
@[simp] theorem State.withHeight_mem : (s.withHeight v).mem = s.mem := rfl
@[simp] theorem State.withHeight_gfx : (s.withHeight v).gfx = s.gfx := rfl
@[simp] theorem State.withHeight_width : (s.withHeight v).width = s.width := rfl
@[simp] theorem State.withHeight_height : (s.withHeight v).height = v := rfl
@[simp] theorem State.withHeight_DT : (s.withHeight v).DT = s.DT := rfl
@[simp] theorem State.withHeight_ST : (s.withHeight v).ST = s.ST := rfl
@[simp] theorem State.withHeight_keys : (s.withHeight v).keys = s.keys := rfl
@[simp] theorem State.withHeight_blocking : (s.withHeight v).blocking = s.blocking := rfl
@[simp] theorem State.withHeight_blockTarget : (s.withHeight v).blockTarget = s.blockTarget := rfl
@[simp] theorem State.withHeight_draw : (s.withHeight v).draw = s.draw := rfl
@[simp] theorem State.withHeight_quit : (s.withHeight v).quit = s.quit := rfl
@[simp] theorem State.withHeight_halted : (s.withHeight v).halted = s.halted := rfl
@[simp] theorem State.withHeight_rng : (s.withHeight v).rng = s.rng := rfl
@[simp] theorem State.withHeight_fault : (s.withHeight v).fault = s.fault := rfl
@[simp] theorem State.withHeight_loadEnabled : (s.withHeight v).loadEnabled = s.loadEnabled := rfl
@[simp] theorem State.withHeight_readV (x : Reg) : (s.withHeight v).readV x = s.readV x := rfl
@[simp] theorem State.withHeight_stackEntry (k : Fin 16) : (s.withHeight v).stackEntry k = s.stackEntry k := rfl
@[simp] theorem State.withHeight_keyDown (k : Nat) : (s.withHeight v).keyDown k = s.keyDown k := rfl

end withHeight

section withDT

variable (s : State) (v : Byte)

@[simp] theorem State.withDT_V : (s.withDT v).V = s.V := rfl
@[simp] theorem State.withDT_pc : (s.withDT v).pc = s.pc := rfl
@[simp] theorem State.withDT_I : (s.withDT v).I = s.I := rfl
@[simp] theorem State.withDT_sp : (s.withDT v).sp = s.sp := rfl
@[simp] theorem State.withDT_stack : (s.withDT v).stack = s.stack := rfl
@[simp] theorem State.withDT_mem : (s.withDT v).mem = s.mem := rfl
@[simp] theorem State.withDT_gfx : (s.withDT v).gfx = s.gfx := rfl
@[simp] theorem State.withDT_width : (s.withDT v).width = s.width := rfl
@[simp] theorem State.withDT_height : (s.withDT v).height = s.height := rfl
@[simp] theorem State.withDT_DT : (s.withDT v).DT = v := rfl
@[simp] theorem State.withDT_ST : (s.withDT v).ST = s.ST := rfl
@[simp] theorem State.withDT_keys : (s.withDT v).keys = s.keys := rfl
@[simp] theorem State.withDT_blocking : (s.withDT v).blocking = s.blocking := rfl
@[simp] theorem State.withDT_blockTarget : (s.withDT v).blockTarget = s.blockTarget := rfl
@[simp] theorem State.withDT_draw : (s.withDT v).draw = s.draw := rfl
@[simp] theorem State.withDT_quit : (s.withDT v).quit = s.quit := rfl
@[simp] theorem State.withDT_halted : (s.withDT v).halted = s.halted := rfl
@[simp] theorem State.withDT_rng : (s.withDT v).rng = s.rng := rfl
@[simp] theorem State.withDT_fault : (s.withDT v).fault = s.fault := rfl
@[simp] theorem State.withDT_loadEnabled : (s.withDT v).loadEnabled = s.loadEnabled := rfl
@[simp] theorem State.withDT_readV (x : Reg) : (s.withDT v).readV x = s.readV x := rfl
@[simp] theorem State.withDT_stackEntry (k : Fin 16) : (s.withDT v).stackEntry k = s.stackEntry k := rfl
@[simp] theorem State.withDT_keyDown (k : Nat) : (s.withDT v).keyDown k = s.keyDown k := rfl

end withDT

section withST

variable (s : State) (v : Byte)

@[simp] theorem State.withST_V : (s.withST v).V = s.V := rfl
@[simp] theorem State.withST_pc : (s.withST v).pc = s.pc := rfl
@[simp] theorem State.withST_I : (s.withST v).I = s.I := rfl
@[simp] theorem State.withST_sp : (s.withST v).sp = s.sp := rfl
@[simp] theorem State.withST_stack : (s.withST v).stack = s.stack := rfl
@[simp] theorem State.withST_mem : (s.withST v).mem = s.mem := rfl
@[simp] theorem State.withST_gfx : (s.withST v).gfx = s.gfx := rfl
@[simp] theorem State.withST_width : (s.withST v).width = s.width := rfl
@[simp] theorem State.withST_height : (s.withST v).height = s.height := rfl
@[simp] theorem State.withST_DT : (s.withST v).DT = s.DT := rfl
@[simp] theorem State.withST_ST : (s.withST v).ST = v := rfl
@[simp] theorem State.withST_keys : (s.withST v).keys = s.keys := rfl
@[simp] theorem State.withST_blocking : (s.withST v).blocking = s.blocking := rfl
@[simp] theorem State.withST_blockTarget : (s.withST v).blockTarget = s.blockTarget := rfl
@[simp] theorem State.withST_draw : (s.withST v).draw = s.draw := rfl
@[simp] theorem State.withST_quit : (s.withST v).quit = s.quit := rfl
@[simp] theorem State.withST_halted : (s.withST v).halted = s.halted := rfl
@[simp] theorem State.withST_rng : (s.withST v).rng = s.rng := rfl
@[simp] theorem State.withST_fault : (s.withST v).fault = s.fault := rfl
@[simp] theorem State.withST_loadEnabled : (s.withST v).loadEnabled = s.loadEnabled := rfl
@[simp] theorem State.withST_readV (x : Reg) : (s.withST v).readV x = s.readV x := rfl
@[simp] theorem State.withST_stackEntry (k : Fin 16) : (s.withST v).stackEntry k = s.stackEntry k := rfl
@[simp] theorem State.withST_keyDown (k : Nat) : (s.withST v).keyDown k = s.keyDown k := rfl

end withST

section withKeys

variable (s : State) (v : Vector Bool 16)

@[simp] theorem State.withKeys_V : (s.withKeys v).V = s.V := rfl
@[simp] theorem State.withKeys_pc : (s.withKeys v).pc = s.pc := rfl
@[simp] theorem State.withKeys_I : (s.withKeys v).I = s.I := rfl
@[simp] theorem State.withKeys_sp : (s.withKeys v).sp = s.sp := rfl
@[simp] theorem State.withKeys_stack : (s.withKeys v).stack = s.stack := rfl
@[simp] theorem State.withKeys_mem : (s.withKeys v).mem = s.mem := rfl
@[simp] theorem State.withKeys_gfx : (s.withKeys v).gfx = s.gfx := rfl
@[simp] theorem State.withKeys_width : (s.withKeys v).width = s.width := rfl
@[simp] theorem State.withKeys_height : (s.withKeys v).height = s.height := rfl
@[simp] theorem State.withKeys_DT : (s.withKeys v).DT = s.DT := rfl
@[simp] theorem State.withKeys_ST : (s.withKeys v).ST = s.ST := rfl
@[simp] theorem State.withKeys_keys : (s.withKeys v).keys = v := rfl
@[simp] theorem State.withKeys_blocking : (s.withKeys v).blocking = s.blocking := rfl
@[simp] theorem State.withKeys_blockTarget : (s.withKeys v).blockTarget = s.blockTarget := rfl
@[simp] theorem State.withKeys_draw : (s.withKeys v).draw = s.draw := rfl
@[simp] theorem State.withKeys_quit : (s.withKeys v).quit = s.quit := rfl
@[simp] theorem State.withKeys_halted : (s.withKeys v).halted = s.halted := rfl
@[simp] theorem State.withKeys_rng : (s.withKeys v).rng = s.rng := rfl
@[simp] theorem State.withKeys_fault : (s.withKeys v).fault = s.fault := rfl
@[simp] theorem State.withKeys_loadEnabled : (s.withKeys v).loadEnabled = s.loadEnabled := rfl
@[simp] theorem State.withKeys_readV (x : Reg) : (s.withKeys v).readV x = s.readV x := rfl
@[simp] theorem State.withKeys_stackEntry (k : Fin 16) : (s.withKeys v).stackEntry k = s.stackEntry k := rfl

end withKeys

section withBlocking

variable (s : State) (v : Bool)

@[simp] theorem State.withBlocking_V : (s.withBlocking v).V = s.V := rfl
@[simp] theorem State.withBlocking_pc : (s.withBlocking v).pc = s.pc := rfl
@[simp] theorem State.withBlocking_I : (s.withBlocking v).I = s.I := rfl
@[simp] theorem State.withBlocking_sp : (s.withBlocking v).sp = s.sp := rfl
@[simp] theorem State.withBlocking_stack : (s.withBlocking v).stack = s.stack := rfl
@[simp] theorem State.withBlocking_mem : (s.withBlocking v).mem = s.mem := rfl
@[simp] theorem State.withBlocking_gfx : (s.withBlocking v).gfx = s.gfx := rfl
@[simp] theorem State.withBlocking_width : (s.withBlocking v).width = s.width := rfl
@[simp] theorem State.withBlocking_height : (s.withBlocking v).height = s.height := rfl
@[simp] theorem State.withBlocking_DT : (s.withBlocking v).DT = s.DT := rfl
@[simp] theorem State.withBlocking_ST : (s.withBlocking v).ST = s.ST := rfl
@[simp] theorem State.withBlocking_keys : (s.withBlocking v).keys = s.keys := rfl
@[simp] theorem State.withBlocking_blocking : (s.withBlocking v).blocking = v := rfl
@[simp] theorem State.withBlocking_blockTarget : (s.withBlocking v).blockTarget = s.blockTarget := rfl
@[simp] theorem State.withBlocking_draw : (s.withBlocking v).draw = s.draw := rfl
@[simp] theorem State.withBlocking_quit : (s.withBlocking v).quit = s.quit := rfl
@[simp] theorem State.withBlocking_halted : (s.withBlocking v).halted = s.halted := rfl
@[simp] theorem State.withBlocking_rng : (s.withBlocking v).rng = s.rng := rfl
@[simp] theorem State.withBlocking_fault : (s.withBlocking v).fault = s.fault := rfl
@[simp] theorem State.withBlocking_loadEnabled : (s.withBlocking v).loadEnabled = s.loadEnabled := rfl
@[simp] theorem State.withBlocking_readV (x : Reg) : (s.withBlocking v).readV x = s.readV x := rfl
@[simp] theorem State.withBlocking_stackEntry (k : Fin 16) : (s.withBlocking v).stackEntry k = s.stackEntry k := rfl
@[simp] theorem State.withBlocking_keyDown (k : Nat) : (s.withBlocking v).keyDown k = s.keyDown k := rfl

end withBlocking

section withBlockTarget

variable (s : State) (v : Reg)

@[simp] theorem State.withBlockTarget_V : (s.withBlockTarget v).V = s.V := rfl
@[simp] theorem State.withBlockTarget_pc : (s.withBlockTarget v).pc = s.pc := rfl
@[simp] theorem State.withBlockTarget_I : (s.withBlockTarget v).I = s.I := rfl
@[simp] theorem State.withBlockTarget_sp : (s.withBlockTarget v).sp = s.sp := rfl
@[simp] theorem State.withBlockTarget_stack : (s.withBlockTarget v).stack = s.stack := rfl
@[simp] theorem State.withBlockTarget_mem : (s.withBlockTarget v).mem = s.mem := rfl
@[simp] theorem State.withBlockTarget_gfx : (s.withBlockTarget v).gfx = s.gfx := rfl
@[simp] theorem State.withBlockTarget_width : (s.withBlockTarget v).width = s.width := rfl
@[simp] theorem State.withBlockTarget_height : (s.withBlockTarget v).height = s.height := rfl
@[simp] theorem State.withBlockTarget_DT : (s.withBlockTarget v).DT = s.DT := rfl
@[simp] theorem State.withBlockTarget_ST : (s.withBlockTarget v).ST = s.ST := rfl
@[simp] theorem State.withBlockTarget_keys : (s.withBlockTarget v).keys = s.keys := rfl
@[simp] theorem State.withBlockTarget_blocking : (s.withBlockTarget v).blocking = s.blocking := rfl
@[simp] theorem State.withBlockTarget_blockTarget : (s.withBlockTarget v).blockTarget = v := rfl
@[simp] theorem State.withBlockTarget_draw : (s.withBlockTarget v).draw = s.draw := rfl
@[simp] theorem State.withBlockTarget_quit : (s.withBlockTarget v).quit = s.quit := rfl
@[simp] theorem State.withBlockTarget_halted : (s.withBlockTarget v).halted = s.halted := rfl
@[simp] theorem State.withBlockTarget_rng : (s.withBlockTarget v).rng = s.rng := rfl
@[simp] theorem State.withBlockTarget_fault : (s.withBlockTarget v).fault = s.fault := rfl
@[simp] theorem State.withBlockTarget_loadEnabled : (s.withBlockTarget v).loadEnabled = s.loadEnabled := rfl
@[simp] theorem State.withBlockTarget_readV (x : Reg) : (s.withBlockTarget v).readV x = s.readV x := rfl
@[simp] theorem State.withBlockTarget_stackEntry (k : Fin 16) : (s.withBlockTarget v).stackEntry k = s.stackEntry k := rfl
@[simp] theorem State.withBlockTarget_keyDown (k : Nat) : (s.withBlockTarget v).keyDown k = s.keyDown k := rfl

end withBlockTarget

section withDraw

variable (s : State) (v : Bool)

@[simp] theorem State.withDraw_V : (s.withDraw v).V = s.V := rfl
@[simp] theorem State.withDraw_pc : (s.withDraw v).pc = s.pc := rfl
@[simp] theorem State.withDraw_I : (s.withDraw v).I = s.I := rfl
@[simp] theorem State.withDraw_sp : (s.withDraw v).sp = s.sp := rfl
@[simp] theorem State.withDraw_stack : (s.withDraw v).stack = s.stack := rfl
@[simp] theorem State.withDraw_mem : (s.withDraw v).mem = s.mem := rfl
@[simp] theorem State.withDraw_gfx : (s.withDraw v).gfx = s.gfx := rfl
@[simp] theorem State.withDraw_width : (s.withDraw v).width = s.width := rfl
@[simp] theorem State.withDraw_height : (s.withDraw v).height = s.height := rfl
@[simp] theorem State.withDraw_DT : (s.withDraw v).DT = s.DT := rfl
@[simp] theorem State.withDraw_ST : (s.withDraw v).ST = s.ST := rfl
@[simp] theorem State.withDraw_keys : (s.withDraw v).keys = s.keys := rfl
@[simp] theorem State.withDraw_blocking : (s.withDraw v).blocking = s.blocking := rfl
@[simp] theorem State.withDraw_blockTarget : (s.withDraw v).blockTarget = s.blockTarget := rfl
@[simp] theorem State.withDraw_draw : (s.withDraw v).draw = v := rfl
@[simp] theorem State.withDraw_quit : (s.withDraw v).quit = s.quit := rfl
@[simp] theorem State.withDraw_halted : (s.withDraw v).halted = s.halted := rfl
@[simp] theorem State.withDraw_rng : (s.withDraw v).rng = s.rng := rfl
@[simp] theorem State.withDraw_fault : (s.withDraw v).fault = s.fault := rfl
@[simp] theorem State.withDraw_loadEnabled : (s.withDraw v).loadEnabled = s.loadEnabled := rfl
@[simp] theorem State.withDraw_readV (x : Reg) : (s.withDraw v).readV x = s.readV x := rfl
@[simp] theorem State.withDraw_stackEntry (k : Fin 16) : (s.withDraw v).stackEntry k = s.stackEntry k := rfl
@[simp] theorem State.withDraw_keyDown (k : Nat) : (s.withDraw v).keyDown k = s.keyDown k := rfl

end withDraw

section withQuit

variable (s : State) (v : Bool)

@[simp] theorem State.withQuit_V : (s.withQuit v).V = s.V := rfl
@[simp] theorem State.withQuit_pc : (s.withQuit v).pc = s.pc := rfl
@[simp] theorem State.withQuit_I : (s.withQuit v).I = s.I := rfl
@[simp] theorem State.withQuit_sp : (s.withQuit v).sp = s.sp := rfl
@[simp] theorem State.withQuit_stack : (s.withQuit v).stack = s.stack := rfl
@[simp] theorem State.withQuit_mem : (s.withQuit v).mem = s.mem := rfl
@[simp] theorem State.withQuit_gfx : (s.withQuit v).gfx = s.gfx := rfl
@[simp] theorem State.withQuit_width : (s.withQuit v).width = s.width := rfl
@[simp] theorem State.withQuit_height : (s.withQuit v).height = s.height := rfl
@[simp] theorem State.withQuit_DT : (s.withQuit v).DT = s.DT := rfl
@[simp] theorem State.withQuit_ST : (s.withQuit v).ST = s.ST := rfl
@[simp] theorem State.withQuit_keys : (s.withQuit v).keys = s.keys := rfl
@[simp] theorem State.withQuit_blocking : (s.withQuit v).blocking = s.blocking := rfl
@[simp] theorem State.withQuit_blockTarget : (s.withQuit v).blockTarget = s.blockTarget := rfl
@[simp] theorem State.withQuit_draw : (s.withQuit v).draw = s.draw := rfl
@[simp] theorem State.withQuit_quit : (s.withQuit v).quit = v := rfl
@[simp] theorem State.withQuit_halted : (s.withQuit v).halted = s.halted := rfl
@[simp] theorem State.withQuit_rng : (s.withQuit v).rng = s.rng := rfl
@[simp] theorem State.withQuit_fault : (s.withQuit v).fault = s.fault := rfl
@[simp] theorem State.withQuit_loadEnabled : (s.withQuit v).loadEnabled = s.loadEnabled := rfl
@[simp] theorem State.withQuit_readV (x : Reg) : (s.withQuit v).readV x = s.readV x := rfl
@[simp] theorem State.withQuit_stackEntry (k : Fin 16) : (s.withQuit v).stackEntry k = s.stackEntry k := rfl
@[simp] theorem State.withQuit_keyDown (k : Nat) : (s.withQuit v).keyDown k = s.keyDown k := rfl

end withQuit

section withHalted

variable (s : State) (v : Bool)

@[simp] theorem State.withHalted_V : (s.withHalted v).V = s.V := rfl
@[simp] theorem State.withHalted_pc : (s.withHalted v).pc = s.pc := rfl
@[simp] theorem State.withHalted_I : (s.withHalted v).I = s.I := rfl
@[simp] theorem State.withHalted_sp : (s.withHalted v).sp = s.sp := rfl
@[simp] theorem State.withHalted_stack : (s.withHalted v).stack = s.stack := rfl
@[simp] theorem State.withHalted_mem : (s.withHalted v).mem = s.mem := rfl
@[simp] theorem State.withHalted_gfx : (s.withHalted v).gfx = s.gfx := rfl
@[simp] theorem State.withHalted_width : (s.withHalted v).width = s.width := rfl
@[simp] theorem State.withHalted_height : (s.withHalted v).height = s.height := rfl
@[simp] theorem State.withHalted_DT : (s.withHalted v).DT = s.DT := rfl
@[simp] theorem State.withHalted_ST : (s.withHalted v).ST = s.ST := rfl
@[simp] theorem State.withHalted_keys : (s.withHalted v).keys = s.keys := rfl
@[simp] theorem State.withHalted_blocking : (s.withHalted v).blocking = s.blocking := rfl
@[simp] theorem State.withHalted_blockTarget : (s.withHalted v).blockTarget = s.blockTarget := rfl
@[simp] theorem State.withHalted_draw : (s.withHalted v).draw = s.draw := rfl
@[simp] theorem State.withHalted_quit : (s.withHalted v).quit = s.quit := rfl
@[simp] theorem State.withHalted_halted : (s.withHalted v).halted = v := rfl
@[simp] theorem State.withHalted_rng : (s.withHalted v).rng = s.rng := rfl
@[simp] theorem State.withHalted_fault : (s.withHalted v).fault = s.fault := rfl
@[simp] theorem State.withHalted_loadEnabled : (s.withHalted v).loadEnabled = s.loadEnabled := rfl
@[simp] theorem State.withHalted_readV (x : Reg) : (s.withHalted v).readV x = s.readV x := rfl
@[simp] theorem State.withHalted_stackEntry (k : Fin 16) : (s.withHalted v).stackEntry k = s.stackEntry k := rfl
@[simp] theorem State.withHalted_keyDown (k : Nat) : (s.withHalted v).keyDown k = s.keyDown k := rfl

end withHalted

section withRng

variable (s : State) (v : RandomSource)

@[simp] theorem State.withRng_V : (s.withRng v).V = s.V := rfl
@[simp] theorem State.withRng_pc : (s.withRng v).pc = s.pc := rfl
@[simp] theorem State.withRng_I : (s.withRng v).I = s.I := rfl
@[simp] theorem State.withRng_sp : (s.withRng v).sp = s.sp := rfl
@[simp] theorem State.withRng_stack : (s.withRng v).stack = s.stack := rfl
@[simp] theorem State.withRng_mem : (s.withRng v).mem = s.mem := rfl
@[simp] theorem State.withRng_gfx : (s.withRng v).gfx = s.gfx := rfl
@[simp] theorem State.withRng_width : (s.withRng v).width = s.width := rfl
@[simp] theorem State.withRng_height : (s.withRng v).height = s.height := rfl
@[simp] theorem State.withRng_DT : (s.withRng v).DT = s.DT := rfl
@[simp] theorem State.withRng_ST : (s.withRng v).ST = s.ST := rfl
@[simp] theorem State.withRng_keys : (s.withRng v).keys = s.keys := rfl
@[simp] theorem State.withRng_blocking : (s.withRng v).blocking = s.blocking := rfl
@[simp] theorem State.withRng_blockTarget : (s.withRng v).blockTarget = s.blockTarget := rfl
@[simp] theorem State.withRng_draw : (s.withRng v).draw = s.draw := rfl
@[simp] theorem State.withRng_quit : (s.withRng v).quit = s.quit := rfl
@[simp] theorem State.withRng_halted : (s.withRng v).halted = s.halted := rfl
@[simp] theorem State.withRng_rng : (s.withRng v).rng = v := rfl
@[simp] theorem State.withRng_fault : (s.withRng v).fault = s.fault := rfl
@[simp] theorem State.withRng_loadEnabled : (s.withRng v).loadEnabled = s.loadEnabled := rfl
@[simp] theorem State.withRng_readV (x : Reg) : (s.withRng v).readV x = s.readV x := rfl
@[simp] theorem State.withRng_stackEntry (k : Fin 16) : (s.withRng v).stackEntry k = s.stackEntry k := rfl
@[simp] theorem State.withRng_keyDown (k : Nat) : (s.withRng v).keyDown k = s.keyDown k := rfl

end withRng

section withFault

variable (s : State) (v : Option Fault)

@[simp] theorem State.withFault_V : (s.withFault v).V = s.V := rfl
@[simp] theorem State.withFault_pc : (s.withFault v).pc = s.pc := rfl
@[simp] theorem State.withFault_I : (s.withFault v).I = s.I := rfl
@[simp] theorem State.withFault_sp : (s.withFault v).sp = s.sp := rfl
@[simp] theorem State.withFault_stack : (s.withFault v).stack = s.stack := rfl
@[simp] theorem State.withFault_mem : (s.withFault v).mem = s.mem := rfl
@[simp] theorem State.withFault_gfx : (s.withFault v).gfx = s.gfx := rfl
@[simp] theorem State.withFault_width : (s.withFault v).width = s.width := rfl
@[simp] theorem State.withFault_height : (s.withFault v).height = s.height := rfl
@[simp] theorem State.withFault_DT : (s.withFault v).DT = s.DT := rfl
@[simp] theorem State.withFault_ST : (s.withFault v).ST = s.ST := rfl
@[simp] theorem State.withFault_keys : (s.withFault v).keys = s.keys := rfl
@[simp] theorem State.withFault_blocking : (s.withFault v).blocking = s.blocking := rfl
@[simp] theorem State.withFault_blockTarget : (s.withFault v).blockTarget = s.blockTarget := rfl
@[simp] theorem State.withFault_draw : (s.withFault v).draw = s.draw := rfl
@[simp] theorem State.withFault_quit : (s.withFault v).quit = s.quit := rfl
@[simp] theorem State.withFault_halted : (s.withFault v).halted = s.halted := rfl
@[simp] theorem State.withFault_rng : (s.withFault v).rng = s.rng := rfl
@[simp] theorem State.withFault_fault : (s.withFault v).fault = v := rfl
@[simp] theorem State.withFault_loadEnabled : (s.withFault v).loadEnabled = s.loadEnabled := rfl
@[simp] theorem State.withFault_readV (x : Reg) : (s.withFault v).readV x = s.readV x := rfl
@[simp] theorem State.withFault_stackEntry (k : Fin 16) : (s.withFault v).stackEntry k = s.stackEntry k := rfl
@[simp] theorem State.withFault_keyDown (k : Nat) : (s.withFault v).keyDown k = s.keyDown k := rfl

end withFault

section withLoadEnabled

variable (s : State) (v : Bool)

@[simp] theorem State.withLoadEnabled_V : (s.withLoadEnabled v).V = s.V := rfl
@[simp] theorem State.withLoadEnabled_pc : (s.withLoadEnabled v).pc = s.pc := rfl
@[simp] theorem State.withLoadEnabled_I : (s.withLoadEnabled v).I = s.I := rfl
@[simp] theorem State.withLoadEnabled_sp : (s.withLoadEnabled v).sp = s.sp := rfl
@[simp] theorem State.withLoadEnabled_stack : (s.withLoadEnabled v).stack = s.stack := rfl
@[simp] theorem State.withLoadEnabled_mem : (s.withLoadEnabled v).mem = s.mem := rfl
@[simp] theorem State.withLoadEnabled_gfx : (s.withLoadEnabled v).gfx = s.gfx := rfl
@[simp] theorem State.withLoadEnabled_width : (s.withLoadEnabled v).width = s.width := rfl
@[simp] theorem State.withLoadEnabled_height : (s.withLoadEnabled v).height = s.height := rfl
@[simp] theorem State.withLoadEnabled_DT : (s.withLoadEnabled v).DT = s.DT := rfl
@[simp] theorem State.withLoadEnabled_ST : (s.withLoadEnabled v).ST = s.ST := rfl
@[simp] theorem State.withLoadEnabled_keys : (s.withLoadEnabled v).keys = s.keys := rfl
@[simp] theorem State.withLoadEnabled_blocking : (s.withLoadEnabled v).blocking = s.blocking := rfl
@[simp] theorem State.withLoadEnabled_blockTarget : (s.withLoadEnabled v).blockTarget = s.blockTarget := rfl
@[simp] theorem State.withLoadEnabled_draw : (s.withLoadEnabled v).draw = s.draw := rfl
@[simp] theorem State.withLoadEnabled_quit : (s.withLoadEnabled v).quit = s.quit := rfl
@[simp] theorem State.withLoadEnabled_halted : (s.withLoadEnabled v).halted = s.halted := rfl
@[simp] theorem State.withLoadEnabled_rng : (s.withLoadEnabled v).rng = s.rng := rfl
@[simp] theorem State.withLoadEnabled_fault : (s.withLoadEnabled v).fault = s.fault := rfl
@[simp] theorem State.withLoadEnabled_loadEnabled : (s.withLoadEnabled v).loadEnabled = v := rfl
@[simp] theorem State.withLoadEnabled_readV (x : Reg) : (s.withLoadEnabled v).readV x = s.readV x := rfl
@[simp] theorem State.withLoadEnabled_stackEntry (k : Fin 16) : (s.withLoadEnabled v).stackEntry k = s.stackEntry k := rfl
@[simp] theorem State.withLoadEnabled_keyDown (k : Nat) : (s.withLoadEnabled v).keyDown k = s.keyDown k := rfl

end withLoadEnabled

end Sys2Proof.Machine
end

