-- ==== Sys2Proof/Laws/Registers.lean ====
section
/-! SUPPORT. The laws of the register file and of the flag writes: what a read gives after each kind of write. -/

namespace Sys2Proof.Machine

@[simp] theorem readV_withV (s : State) (v : Vector Byte 16) (x : Reg) : (s.withV v).readV x = v[x.val] := rfl

theorem readV_writeV (s : State) (x y : Reg) (b : Byte) :
    (s.writeV x b).readV y = if x = y then b else s.readV y := by
  simp only [State.readV, State.writeV, State.withV_V, Vector.getElem_set, Fin.ext_iff]

@[simp] theorem readV_writeV_same (s : State) (x : Reg) (b : Byte) : (s.writeV x b).readV x = b := by
  simp [readV_writeV]

theorem readV_writeV_ne (s : State) {x y : Reg} (b : Byte) (h : y ≠ x) :
    (s.writeV x b).readV y = s.readV y := by
  simp [readV_writeV, Ne.symm h]

theorem readV_writeRegs (s : State) (bs : List Byte) (x : Reg) :
    (s.writeRegs bs).readV x = bs.getD x.val (s.readV x) := by
  simp [State.writeRegs]

theorem length_readRegs (s : State) {n : Nat} (h : n ≤ 16) : (s.readRegs n).length = n := by
  simpa [State.readRegs] using h

theorem getD_readRegs (s : State) {n : Nat} (x : Reg) (d : Byte) (h : x.val < n) :
    (s.readRegs n).getD x.val d = s.readV x := by
  have hx : x.val < s.V.toList.length := by simp
  simp [State.readRegs, State.readV, List.getD, h]

theorem readV_writeFlag (s : State) (f : Bool) (y : Reg) :
    (writeFlag f s).readV y = if y = flagReg then flagByte f else s.readV y := by
  simp only [writeFlag, readV_writeV, eq_comm]

/-- R155: the flag, written last, is what VF holds. -/
@[simp] theorem readV_writeResultAndFlag_flag (s : State) (x : Reg) (r : Byte) (f : Bool) :
    (writeResultAndFlag x r f s).readV flagReg = flagByte f := by
  simp [writeResultAndFlag, readV_writeFlag]

theorem readV_writeResultAndFlag (s : State) (x : Reg) (r : Byte) (f : Bool) (y : Reg) :
    (writeResultAndFlag x r f s).readV y =
      if y = flagReg then flagByte f else if y = x then r else s.readV y := by
  simp only [writeResultAndFlag, readV_writeFlag, readV_writeV, eq_comm]

/-- A write of registers is a new register file and nothing else. -/
theorem writeV_eq (s : State) (x : Reg) (b : Byte) : s.writeV x b = s.withV (s.V.set x.val b) := rfl

theorem writeRegs_eq (s : State) (bs : List Byte) :
    s.writeRegs bs = s.withV (Vector.ofFn fun k : Fin 16 => bs.getD k.val (s.readV k)) := rfl

theorem writeFlag_eq (s : State) (f : Bool) :
    writeFlag f s = s.withV (s.V.set flagReg.val (flagByte f)) := rfl

theorem writeResultAndFlag_eq (s : State) (x : Reg) (r : Byte) (f : Bool) :
    writeResultAndFlag x r f s = s.withV ((s.V.set x.val r).set flagReg.val (flagByte f)) := rfl

end Sys2Proof.Machine
end

