-- ==== Sys2Proof/Laws/Control.lean ====
section
/-! SUPPORT. What each shared operation of control can answer: raising, checked continuation, writes of the program
counter, skips, the call stack, the key check. -/

namespace Sys2Proof.Machine

@[simp] theorem orRaise_ok {α : Type} (a : α) (k : α → Result) : orRaise (.ok a) k = k a := rfl

@[simp] theorem orRaise_error {α : Type} (f : Fault) (k : α → Result) : orRaise (.error f) k = .fault f := rfl

theorem orRaise_eq_next_iff {α : Type} {e : Except Fault α} {k : α → Result} {t : State} :
    orRaise e k = .next t ↔ ∃ a, e = .ok a ∧ k a = .next t := by
  cases e <;> simp

theorem orRaise_eq_fault_iff {α : Type} {e : Except Fault α} {k : α → Result} {f : Fault} :
    orRaise e k = .fault f ↔ e = .error f ∨ ∃ a, e = .ok a ∧ k a = .fault f := by
  cases e <;> simp

theorem pcRejects_eq_false_iff {t : Nat} : pcRejects t = false ↔ t % 2 = 0 ∧ t ≤ 4094 := by
  simp only [pcRejects, decide_eq_false_iff_not]
  omega

theorem pcRejects_eq_true_iff {t : Nat} : pcRejects t = true ↔ t % 2 = 1 ∨ 4094 < t := by
  simp [pcRejects]

/-- Everything a write of `pc` can do (40_pipeline.md R104): an even value of at most 4094 is written, any other
raises. -/
theorem setPc_eq_next_iff {k : Nat} {s t : State} :
    setPc k s = .next t ↔ k % 2 = 0 ∧ k ≤ 4094 ∧ t = s.withPc (BitVec.ofNat 12 k) := by
  rw [← and_assoc, ← pcRejects_eq_false_iff, setPc]
  cases pcRejects k <;> simp [raise, @eq_comm _ t]

theorem setPc_eq_fault_iff {k : Nat} {s : State} {f : Fault} :
    setPc k s = .fault f ↔ (k % 2 = 1 ∨ 4094 < k) ∧ f = .pcRange k := by
  rw [← pcRejects_eq_true_iff, setPc]
  cases pcRejects k <;> simp [raise, @eq_comm _ f]

theorem setPc_ne_refused {k : Nat} {s : State} {r : Refusal} : setPc k s ≠ .refused r := by
  unfold setPc
  split <;> simp [raise]

/-- `pc` after a successful write is the number written. -/
theorem toNat_ofNat_of_le {k : Nat} (h : k ≤ 4094) : (BitVec.ofNat 12 k).toNat = k := by
  simp only [BitVec.toNat_ofNat]; omega

theorem advance_eq_next_iff {k : Nat} {s t : State} :
    advance k s = .next t ↔ (s.pc.toNat + k) % 2 = 0 ∧ s.pc.toNat + k ≤ 4094 ∧
      t = s.withPc (BitVec.ofNat 12 (s.pc.toNat + k)) := setPc_eq_next_iff

theorem advance_eq_fault_iff {k : Nat} {s : State} {f : Fault} :
    advance k s = .fault f ↔ ((s.pc.toNat + k) % 2 = 1 ∨ 4094 < s.pc.toNat + k) ∧
      f = .pcRange (s.pc.toNat + k) := setPc_eq_fault_iff

/-- How far a skip goes (42_conditional_skip.md). -/
def skipLength (c : Bool) : Nat := if c then 4 else 2

theorem skipIf_eq (c : Bool) (s : State) : skipIf c s = advance (skipLength c) s := by
  cases c <;> rfl

theorem pushSlot_val {s : State} (h : s.sp.val ≠ 16) : s.pushSlot.val = s.sp.val := by
  have := s.sp.isLt
  simp only [State.pushSlot, Fin.ofNat]; omega

theorem popSlot_val {s : State} : s.popSlot.val = s.sp.val - 1 := by
  have := s.sp.isLt
  simp only [State.popSlot, Fin.ofNat]; omega

theorem stackEntry_pushReturn (r : Addr) (s : State) (k : Fin 16) :
    (pushReturn r s).stackEntry k = if k = s.pushSlot then r else s.stackEntry k := by
  simp only [pushReturn, State.stackEntry, State.withSp_stack, State.withStack_stack, Vector.getElem_set,
    Fin.ext_iff, eq_comm]

@[simp] theorem stackEntry_popReturn (s : State) (k : Fin 16) :
    (popReturn s).stackEntry k = s.stackEntry k := rfl

theorem sp_pushReturn (r : Addr) {s : State} (h : s.sp.val ≠ 16) :
    (pushReturn r s).sp.val = s.sp.val + 1 := by
  have := s.sp.isLt
  simp only [pushReturn, State.withSp_sp, Fin.ofNat]; omega

theorem sp_popReturn {s : State} : (popReturn s).sp.val = s.sp.val - 1 := by
  have := s.sp.isLt
  simp only [popReturn, State.withSp_sp, Fin.ofNat]; omega

theorem keyIndex_eq_ok_iff {v : Byte} {k : Nat} : keyIndex v = .ok k ↔ v.toNat ≤ 15 ∧ k = v.toNat := by
  unfold keyIndex
  split
  · simp only [reduceCtorEq, false_iff]; omega
  · simp only [Except.ok.injEq, @eq_comm _ k]; omega

theorem keyIndex_eq_error_iff {v : Byte} {f : Fault} :
    keyIndex v = .error f ↔ 15 < v.toNat ∧ f = .keyRange v.toNat := by
  unfold keyIndex
  split <;> simp_all [@eq_comm _ f]

/-- The key that KEY_PICK takes: held, and no lower one is. -/
theorem pickKey_eq_some {p : Config.KeyPick} {s : State} {k : Fin 16} (h : pickKey p s = some k) :
    s.keyDown k.val = true ∧ ∀ j : Fin 16, j < k → s.keyDown j.val = false := by
  cases p
  obtain ⟨hk, as, bs, hl, hno⟩ := List.find?_eq_some_iff_append.mp h
  refine ⟨hk, fun j hj => ?_⟩
  have hs : (as ++ k :: bs).Pairwise (· < ·) := hl ▸ List.pairwise_lt_finRange 16
  have hjm : j ∈ as ++ k :: bs := hl ▸ List.mem_finRange j
  rcases List.mem_append.mp hjm with hm | hm
  · simpa using hno j hm
  · rcases List.mem_cons.mp hm with rfl | hm
    · exact absurd hj (lt_irrefl _)
    · have := (List.pairwise_cons.mp (List.pairwise_append.mp hs).2.1).1 j hm
      exact absurd hj (lt_asymm this)

theorem pickKey_eq_none {p : Config.KeyPick} {s : State} :
    pickKey p s = none ↔ ∀ k : Fin 16, s.keyDown k.val = false := by
  cases p
  simp [pickKey, List.find?_eq_none]

end Sys2Proof.Machine
end

