-- ==== Sys2Proof/Laws/Decode.lean ====
section
/-! SUPPORT. The laws of the decoder and the encoder: a word that a template accepts decodes by that template, whatever its
place in the catalog; and the fields of an encoded word are the fields that were encoded. -/

namespace Sys2Proof

/-- Two templates fix some bit differently, so that no word matches both (30_encoding.md R87). -/
def Template.clash (t u : Template) : Bool := t.mask &&& u.mask &&& (t.pattern ^^^ u.pattern) != 0

theorem catalog_pairwise_clash : catalog.Pairwise fun t u => t.clash u = true := by decide

theorem accepts_iff {t : Template} {w : Word} : t.accepts w = true ↔ w &&& t.mask = t.pattern := by
  simp [Template.accepts]

theorem not_accepts_of_clash {t u : Template} {w : Word} (h : t.clash u = true) (ht : t.accepts w = true) :
    u.accepts w = false := by
  cases hu : u.accepts w with
  | false => rfl
  | true =>
    rw [accepts_iff] at ht hu
    have : t.mask &&& u.mask &&& (t.pattern ^^^ u.pattern) = 0 := by
      rw [← ht, ← hu]
      apply BitVec.eq_of_getLsbD_eq
      intro k hk
      simp only [BitVec.getLsbD_and, BitVec.getLsbD_xor]
      cases w.getLsbD k <;> cases t.mask.getLsbD k <;> cases u.mask.getLsbD k <;> simp
    simp [Template.clash, this] at h

theorem clash_symm {t u : Template} (h : t.clash u = true) : u.clash t = true := by
  simpa only [Template.clash, BitVec.and_comm u.mask, BitVec.xor_comm u.pattern] using h

theorem find?_of_pairwise_clash {l : List Template} (hl : l.Pairwise fun t u => t.clash u = true)
    {t : Template} (ht : t ∈ l) {w : Word} (h : t.accepts w = true) :
    l.find? (·.accepts w) = some t := by
  induction l with
  | nil => simp at ht
  | cons u l ih =>
    obtain ⟨hu, hl⟩ := List.pairwise_cons.mp hl
    rcases List.mem_cons.mp ht with rfl | ht
    · simp [h]
    · rw [List.find?_cons_of_neg (by simp [not_accepts_of_clash (clash_symm (hu t ht)) h]), ih hl ht]

/-- A word that a template of the catalog accepts decodes by that template (R85, R87). -/
theorem decode_of_accepts {t : Template} (ht : t ∈ catalog) {w : Word} (h : w &&& t.mask = t.pattern) :
    decode w = t.build (fieldsOf w) := by
  rw [decode, find?_of_pairwise_clash catalog_pairwise_clash ht (accepts_iff.mpr h)]

/-- A word that no template accepts decodes to the sentinel (R85). -/
theorem decode_of_none {w : Word} (h : ∀ t ∈ catalog, w &&& t.mask ≠ t.pattern) : decode w = .unknown w := by
  have : catalog.find? (·.accepts w) = none := by
    rw [List.find?_eq_none]
    exact fun t ht => by simpa [accepts_iff] using h t ht
  rw [decode, this]

/-- A vector of bits is its high part and its low part. -/
theorem eq_append_extract {m n : Nat} (v : BitVec (m + n)) : v = v.extractLsb' n m ++ v.extractLsb' 0 n := by
  apply BitVec.eq_of_getLsbD_eq
  intro k hk
  rw [BitVec.getLsbD_append]
  split
  · simp [*]
  · simp [show k - n < m by omega, show n + (k - n) = k by omega]

theorem byte_eq_nibbles (kk : Byte) : ∃ c d : BitVec 4, kk = c ++ d :=
  ⟨_, _, eq_append_extract (m := 4) (n := 4) kk⟩

theorem addr_eq_nibbles (nnn : Addr) : ∃ b c d : BitVec 4, nnn = b ++ (c ++ d) := by
  obtain ⟨c, d, h⟩ := byte_eq_nibbles (nnn.extractLsb' 0 8)
  exact ⟨nnn.extractLsb' 8 4, c, d, h ▸ eq_append_extract (m := 4) (n := 8) nnn⟩

/-- Every word is the four nibbles of R81. -/
theorem exists_nibbles (w : Word) : ∃ a b c d : BitVec 4, w = a ++ (b ++ (c ++ d)) := by
  obtain ⟨b, c, d, h⟩ := addr_eq_nibbles (w.extractLsb' 0 12)
  exact ⟨w.extractLsb' 12 4, b, c, d, h ▸ eq_append_extract (m := 4) (n := 12) w⟩

/-! ## Masks on nibbles -/

theorem nibbles_and_F000 (a b c d : BitVec 4) :
    (a ++ (b ++ (c ++ d)) : Word) &&& 0xF000 = a ++ (0#4 ++ (0#4 ++ 0#4)) := by
  rw [show (0xF000 : Word) = 0xF#4 ++ (0x0#4 ++ (0x0#4 ++ 0x0#4)) by decide]
  simp only [BitVec.and_append, BitVec.and_zero]
  rw [show (0xF#4) = BitVec.allOnes 4 by decide, BitVec.and_allOnes]

theorem nibbles_and_F00F (a b c d : BitVec 4) :
    (a ++ (b ++ (c ++ d)) : Word) &&& 0xF00F = a ++ (0#4 ++ (0#4 ++ d)) := by
  rw [show (0xF00F : Word) = 0xF#4 ++ (0x0#4 ++ (0x0#4 ++ 0xF#4)) by decide]
  simp only [BitVec.and_append, BitVec.and_zero]
  rw [show (0xF#4) = BitVec.allOnes 4 by decide, BitVec.and_allOnes, BitVec.and_allOnes]

theorem nibbles_and_F0FF (a b c d : BitVec 4) :
    (a ++ (b ++ (c ++ d)) : Word) &&& 0xF0FF = a ++ (0#4 ++ (c ++ d)) := by
  rw [show (0xF0FF : Word) = 0xF#4 ++ (0x0#4 ++ (0xF#4 ++ 0xF#4)) by decide]
  simp only [BitVec.and_append, BitVec.and_zero]
  rw [show (0xF#4) = BitVec.allOnes 4 by decide, BitVec.and_allOnes, BitVec.and_allOnes, BitVec.and_allOnes]

theorem and_FFFF (w : Word) : w &&& 0xFFFF = w := by
  rw [show (0xFFFF : Word) = BitVec.allOnes 16 by decide, BitVec.and_allOnes]

theorem append_nibble_inj {n : Nat} {a a' : BitVec 4} {b b' : BitVec n} :
    (a ++ b = a' ++ b') ↔ a = a' ∧ b = b' := by
  constructor
  · intro h
    have ha := congrArg (BitVec.extractLsb' n 4) h
    have hb := congrArg (BitVec.extractLsb' 0 n) h
    simp only [BitVec.extractLsb'_append_eq_left, BitVec.extractLsb'_append_eq_right] at ha hb
    exact ⟨ha, hb⟩
  · rintro ⟨rfl, rfl⟩; rfl

theorem toNat_append_eq {m n : Nat} (v : BitVec m) (u : BitVec n) :
    (v ++ u).toNat = v.toNat * 2 ^ n + u.toNat := by
  rw [BitVec.toNat_append, ← Nat.shiftLeft_add_eq_or_of_lt u.isLt, Nat.shiftLeft_eq]

/-- The number of a word made of four nibbles. -/
theorem toNat_nibbles (a b c d : BitVec 4) :
    (a ++ (b ++ (c ++ d)) : Word).toNat = a.toNat * 4096 + b.toNat * 256 + c.toNat * 16 + d.toNat := by
  simp only [toNat_append_eq]
  omega

/-! ## Fields of an encoded word -/

theorem extract_high {m n : Nat} (v : BitVec m) (u : BitVec n) (l : Nat) :
    (v ++ u).extractLsb' n l = v.extractLsb' 0 l := by
  apply BitVec.eq_of_getLsbD_eq
  intro k hk
  simp [BitVec.getLsbD_append, hk]

theorem extract_low {m n : Nat} (v : BitVec m) (u : BitVec n) {s l : Nat} (h : s + l ≤ n) :
    (v ++ u).extractLsb' s l = u.extractLsb' s l := by
  apply BitVec.eq_of_getLsbD_eq
  intro k hk
  simp [BitVec.getLsbD_append, hk, show s + k < n by omega]

theorem fieldsOf_nibbles (a b c d : BitVec 4) :
    fieldsOf (a ++ (b ++ (c ++ d))) =
      { x := b.toFin, y := c.toFin, kk := c ++ d, nnn := b ++ (c ++ d), n := d.toFin } := by
  have low (s l : Nat) (h : s + l ≤ 12) :
      (a ++ (b ++ (c ++ d)) : Word).extractLsb' s l = (b ++ (c ++ d)).extractLsb' s l :=
    extract_low a (b ++ (c ++ d)) h
  have hx : (a ++ (b ++ (c ++ d)) : Word).extractLsb' 8 4 = b :=
    (low 8 4 (by decide)).trans ((extract_high b (c ++ d) 4).trans BitVec.extractLsb'_eq_self)
  have hy : (a ++ (b ++ (c ++ d)) : Word).extractLsb' 4 4 = c :=
    (low 4 4 (by decide)).trans ((extract_low b (c ++ d) (by decide)).trans
      ((extract_high c d 4).trans BitVec.extractLsb'_eq_self))
  have hn : (a ++ (b ++ (c ++ d)) : Word).extractLsb' 0 4 = d :=
    (low 0 4 (by decide)).trans ((extract_low b (c ++ d) (by decide)).trans
      ((extract_low c d (by decide)).trans BitVec.extractLsb'_eq_self))
  have hkk : (a ++ (b ++ (c ++ d)) : Word).extractLsb' 0 8 = c ++ d :=
    (low 0 8 (by decide)).trans ((extract_low b (c ++ d) (by decide)).trans BitVec.extractLsb'_eq_self)
  have hnnn : (a ++ (b ++ (c ++ d)) : Word).extractLsb' 0 12 = b ++ (c ++ d) :=
    (low 0 12 (by decide)).trans BitVec.extractLsb'_eq_self
  simp only [fieldsOf, nibbleField, hx, hy, hn, hkk, hnnn]

@[simp] theorem toFin_nibbleBits (x : Fin 16) : (nibbleBits x).toFin = x := rfl

@[simp] theorem nibbleBits_toFin (b : BitVec 4) : nibbleBits b.toFin = b := rfl

theorem fieldsOf_encodeA (m : BitVec 4) (nnn : Addr) : (fieldsOf (encodeA m nnn)).nnn = nnn := by
  obtain ⟨b, c, d, rfl⟩ := addr_eq_nibbles nnn
  rw [encodeA, fieldsOf_nibbles]

theorem fieldsOf_encodeXKK (m : BitVec 4) (x : Reg) (kk : Byte) :
    (fieldsOf (encodeXKK m x kk)).x = x ∧ (fieldsOf (encodeXKK m x kk)).kk = kk := by
  obtain ⟨c, d, rfl⟩ := byte_eq_nibbles kk
  rw [encodeXKK, fieldsOf_nibbles]
  exact ⟨rfl, rfl⟩

theorem fieldsOf_encodeXYN (m : BitVec 4) (x y : Reg) (n : BitVec 4) :
    (fieldsOf (encodeXYN m x y n)).x = x ∧ (fieldsOf (encodeXYN m x y n)).y = y ∧
      (fieldsOf (encodeXYN m x y n)).n = n.toFin := by
  rw [encodeXYN, fieldsOf_nibbles]
  exact ⟨rfl, rfl, rfl⟩

theorem encodeA_and_F000 (m : BitVec 4) (nnn : Addr) :
    encodeA m nnn &&& 0xF000 = m ++ (0#4 ++ (0#4 ++ 0#4)) := by
  obtain ⟨b, c, d, rfl⟩ := addr_eq_nibbles nnn
  exact nibbles_and_F000 m b c d

theorem encodeXKK_and_F000 (m : BitVec 4) (x : Reg) (kk : Byte) :
    encodeXKK m x kk &&& 0xF000 = m ++ (0#4 ++ (0#4 ++ 0#4)) := by
  obtain ⟨c, d, rfl⟩ := byte_eq_nibbles kk
  exact nibbles_and_F000 m _ c d

theorem encodeXKK_and_F0FF (m : BitVec 4) (x : Reg) (kk : Byte) :
    encodeXKK m x kk &&& 0xF0FF = m ++ (0#4 ++ kk) := by
  obtain ⟨c, d, rfl⟩ := byte_eq_nibbles kk
  exact nibbles_and_F0FF m _ c d

theorem encodeXYN_and_F00F (m : BitVec 4) (x y : Reg) (n : BitVec 4) :
    encodeXYN m x y n &&& 0xF00F = m ++ (0#4 ++ (0#4 ++ n)) := nibbles_and_F00F m _ _ n

theorem encodeXYN_and_F000 (m : BitVec 4) (x y : Reg) (n : BitVec 4) :
    encodeXYN m x y n &&& 0xF000 = m ++ (0#4 ++ (0#4 ++ 0#4)) := nibbles_and_F000 m _ _ n

/-- The byte order round trip (20_memory.md R61). -/
theorem wordOfBytes_bytesOfWord (w : Word) :
    wordOfBytes ((bytesOfWord w).getD 0 0) ((bytesOfWord w).getD 1 0) = w :=
  (eq_append_extract (m := 8) (n := 8) w).symm

end Sys2Proof
end

