-- ==== Sys2Proof/Laws/PerInstr.lean ====
section
/-! SUPPORT. The statements about every instruction as syntax, one lemma for each constructor. -/

namespace Sys2Proof.Laws

/-- The encoding of an instruction is accepted by a row of the catalog whose reading of that word is the instruction
itself; the sentinel's encoding is the word it carries. -/
def EncodedForm.Statement : Instr → Prop
  | .unknown raw => encode (.unknown raw) = raw
  | i => ∃ t ∈ catalog, encode i &&& t.mask = t.pattern ∧ t.build (fieldsOf (encode i)) = i

namespace EncodedForm

theorem cls : Statement .cls :=
  ⟨⟨"CLS", 0x00E0, 0xFFFF, .none, fun _ => .cls⟩, by simp [catalog, catalogFirst], by decide, rfl⟩

theorem ret : Statement .ret :=
  ⟨⟨"RET", 0x00EE, 0xFFFF, .none, fun _ => .ret⟩, by simp [catalog, catalogFirst], by decide, rfl⟩

theorem nop : Statement .nop :=
  ⟨⟨"NOP", Config.nopWord, 0xFFFF, .none, fun _ => .nop⟩, by simp [catalog, catalogFirst], by decide, rfl⟩

theorem halt : Statement .halt :=
  ⟨⟨"HALT", 0xFFFF, Config.haltMask, .none, fun _ => .halt⟩, by simp [catalog, catalogFirst], by decide, rfl⟩

theorem jp (nnn : Addr) : Statement (.jp nnn) :=
  ⟨⟨"JP", 0x1000, 0xF000, .a, fun f => .jp f.nnn⟩,
    by simp [catalog, catalogFirst, catalogSecond], encodeA_and_F000 _ _, by
    simp [encode, fieldsOf_encodeA]⟩

theorem call (nnn : Addr) : Statement (.call nnn) :=
  ⟨⟨"CALL", 0x2000, 0xF000, .a, fun f => .call f.nnn⟩,
    by simp [catalog, catalogFirst, catalogSecond], encodeA_and_F000 _ _, by
    simp [encode, fieldsOf_encodeA]⟩

theorem seImm (x : Reg) (kk : Byte) : Statement (.seImm x kk) :=
  ⟨⟨"SE_IMM", 0x3000, 0xF000, .xkk, fun f => .seImm f.x f.kk⟩,
    by simp [catalog, catalogFirst, catalogSecond], encodeXKK_and_F000 _ _ _, by
    simp [encode, fieldsOf_encodeXKK]⟩

theorem sneImm (x : Reg) (kk : Byte) : Statement (.sneImm x kk) :=
  ⟨⟨"SNE_IMM", 0x4000, 0xF000, .xkk, fun f => .sneImm f.x f.kk⟩,
    by simp [catalog, catalogFirst, catalogSecond], encodeXKK_and_F000 _ _ _, by
    simp [encode, fieldsOf_encodeXKK]⟩

theorem seReg (x y : Reg) : Statement (.seReg x y) :=
  ⟨⟨"SE_REG", 0x5000, 0xF00F, .xy, fun f => .seReg f.x f.y⟩,
    by simp [catalog, catalogFirst, catalogSecond], encodeXYN_and_F00F _ _ _ _, by
    simp [encode, fieldsOf_encodeXYN]⟩

theorem ldImm (x : Reg) (kk : Byte) : Statement (.ldImm x kk) :=
  ⟨⟨"LD_IMM", 0x6000, 0xF000, .xkk, fun f => .ldImm f.x f.kk⟩,
    by simp [catalog, catalogFirst, catalogSecond], encodeXKK_and_F000 _ _ _, by
    simp [encode, fieldsOf_encodeXKK]⟩

theorem addImm (x : Reg) (kk : Byte) : Statement (.addImm x kk) :=
  ⟨⟨"ADD_IMM", 0x7000, 0xF000, .xkk, fun f => .addImm f.x f.kk⟩,
    by simp [catalog, catalogFirst, catalogSecond], encodeXKK_and_F000 _ _ _, by
    simp [encode, fieldsOf_encodeXKK]⟩

theorem ldReg (x y : Reg) : Statement (.ldReg x y) :=
  ⟨⟨"LD_REG", 0x8000, 0xF00F, .xy, fun f => .ldReg f.x f.y⟩,
    by simp [catalog, catalogFirst, catalogSecond], encodeXYN_and_F00F _ _ _ _, by
    simp [encode, fieldsOf_encodeXYN]⟩

theorem orReg (x y : Reg) : Statement (.orReg x y) :=
  ⟨⟨"OR", 0x8001, 0xF00F, .xy, fun f => .orReg f.x f.y⟩,
    by simp [catalog, catalogFirst, catalogSecond], encodeXYN_and_F00F _ _ _ _, by
    simp [encode, fieldsOf_encodeXYN]⟩

theorem andReg (x y : Reg) : Statement (.andReg x y) :=
  ⟨⟨"AND", 0x8002, 0xF00F, .xy, fun f => .andReg f.x f.y⟩,
    by simp [catalog, catalogFirst, catalogSecond], encodeXYN_and_F00F _ _ _ _, by
    simp [encode, fieldsOf_encodeXYN]⟩

theorem xorReg (x y : Reg) : Statement (.xorReg x y) :=
  ⟨⟨"XOR", 0x8003, 0xF00F, .xy, fun f => .xorReg f.x f.y⟩,
    by simp [catalog, catalogFirst, catalogSecond], encodeXYN_and_F00F _ _ _ _, by
    simp [encode, fieldsOf_encodeXYN]⟩

theorem addReg (x y : Reg) : Statement (.addReg x y) :=
  ⟨⟨"ADD_REG", 0x8004, 0xF00F, .xy, fun f => .addReg f.x f.y⟩,
    by simp [catalog, catalogFirst, catalogSecond], encodeXYN_and_F00F _ _ _ _, by
    simp [encode, fieldsOf_encodeXYN]⟩

theorem sub (x y : Reg) : Statement (.sub x y) :=
  ⟨⟨"SUB", 0x8005, 0xF00F, .xy, fun f => .sub f.x f.y⟩,
    by simp [catalog, catalogFirst, catalogSecond], encodeXYN_and_F00F _ _ _ _, by
    simp [encode, fieldsOf_encodeXYN]⟩

theorem shr (x y : Reg) : Statement (.shr x y) :=
  ⟨⟨"SHR", 0x8006, 0xF00F, .xy, fun f => .shr f.x f.y⟩,
    by simp [catalog, catalogFirst, catalogSecond], encodeXYN_and_F00F _ _ _ _, by
    simp [encode, fieldsOf_encodeXYN]⟩

theorem subn (x y : Reg) : Statement (.subn x y) :=
  ⟨⟨"SUBN", 0x8007, 0xF00F, .xy, fun f => .subn f.x f.y⟩,
    by simp [catalog, catalogFirst, catalogSecond], encodeXYN_and_F00F _ _ _ _, by
    simp [encode, fieldsOf_encodeXYN]⟩

theorem shl (x y : Reg) : Statement (.shl x y) :=
  ⟨⟨"SHL", 0x800E, 0xF00F, .xy, fun f => .shl f.x f.y⟩,
    by simp [catalog, catalogFirst, catalogSecond], encodeXYN_and_F00F _ _ _ _, by
    simp [encode, fieldsOf_encodeXYN]⟩

theorem sneReg (x y : Reg) : Statement (.sneReg x y) :=
  ⟨⟨"SNE_REG", 0x9000, 0xF00F, .xy, fun f => .sneReg f.x f.y⟩,
    by simp [catalog, catalogFirst, catalogSecond], encodeXYN_and_F00F _ _ _ _, by
    simp [encode, fieldsOf_encodeXYN]⟩

theorem ldI (nnn : Addr) : Statement (.ldI nnn) :=
  ⟨⟨"LD_I", 0xA000, 0xF000, .a, fun f => .ldI f.nnn⟩,
    by simp [catalog, catalogFirst, catalogSecond], encodeA_and_F000 _ _, by
    simp [encode, fieldsOf_encodeA]⟩

theorem jpV0 (nnn : Addr) : Statement (.jpV0 nnn) :=
  ⟨⟨"JP_V0", 0xB000, 0xF000, .a, fun f => .jpV0 f.nnn⟩,
    by simp [catalog, catalogFirst, catalogSecond], encodeA_and_F000 _ _, by
    simp [encode, fieldsOf_encodeA]⟩

theorem rnd (x : Reg) (kk : Byte) : Statement (.rnd x kk) :=
  ⟨⟨"RND", 0xC000, 0xF000, .xkk, fun f => .rnd f.x f.kk⟩,
    by simp [catalog, catalogFirst, catalogSecond], encodeXKK_and_F000 _ _ _, by
    simp [encode, fieldsOf_encodeXKK]⟩

theorem drw (x y : Reg) (n : Fin 16) : Statement (.drw x y n) :=
  ⟨⟨"DRW", 0xD000, 0xF000, .xyn, fun f => .drw f.x f.y f.n⟩,
    by simp [catalog, catalogFirst, catalogSecond], encodeXYN_and_F000 _ _ _ _, by
    simp [encode, fieldsOf_encodeXYN]⟩

theorem skp (x : Reg) : Statement (.skp x) :=
  ⟨⟨"SKP", 0xE09E, 0xF0FF, .x, fun f => .skp f.x⟩,
    by simp [catalog, catalogFirst, catalogSecond], encodeXKK_and_F0FF _ _ _, by
    simp [encode, fieldsOf_encodeXKK]⟩

theorem sknp (x : Reg) : Statement (.sknp x) :=
  ⟨⟨"SKNP", 0xE0A1, 0xF0FF, .x, fun f => .sknp f.x⟩,
    by simp [catalog, catalogFirst, catalogSecond], encodeXKK_and_F0FF _ _ _, by
    simp [encode, fieldsOf_encodeXKK]⟩

theorem ldVxDt (x : Reg) : Statement (.ldVxDt x) :=
  ⟨⟨"LD_VX_DT", 0xF007, 0xF0FF, .x, fun f => .ldVxDt f.x⟩,
    by simp [catalog, catalogFirst, catalogSecond], encodeXKK_and_F0FF _ _ _, by
    simp [encode, fieldsOf_encodeXKK]⟩

theorem ldK (x : Reg) : Statement (.ldK x) :=
  ⟨⟨"LD_K", 0xF00A, 0xF0FF, .x, fun f => .ldK f.x⟩,
    by simp [catalog, catalogFirst, catalogSecond], encodeXKK_and_F0FF _ _ _, by
    simp [encode, fieldsOf_encodeXKK]⟩

theorem ldDt (x : Reg) : Statement (.ldDt x) :=
  ⟨⟨"LD_DT", 0xF015, 0xF0FF, .x, fun f => .ldDt f.x⟩,
    by simp [catalog, catalogFirst, catalogSecond], encodeXKK_and_F0FF _ _ _, by
    simp [encode, fieldsOf_encodeXKK]⟩

theorem ldSt (x : Reg) : Statement (.ldSt x) :=
  ⟨⟨"LD_ST", 0xF018, 0xF0FF, .x, fun f => .ldSt f.x⟩,
    by simp [catalog, catalogFirst, catalogSecond], encodeXKK_and_F0FF _ _ _, by
    simp [encode, fieldsOf_encodeXKK]⟩

theorem addI (x : Reg) : Statement (.addI x) :=
  ⟨⟨"ADD_I", 0xF01E, 0xF0FF, .x, fun f => .addI f.x⟩,
    by simp [catalog, catalogFirst, catalogSecond], encodeXKK_and_F0FF _ _ _, by
    simp [encode, fieldsOf_encodeXKK]⟩

theorem ldF (x : Reg) : Statement (.ldF x) :=
  ⟨⟨"LD_F", 0xF029, 0xF0FF, .x, fun f => .ldF f.x⟩,
    by simp [catalog, catalogFirst, catalogSecond], encodeXKK_and_F0FF _ _ _, by
    simp [encode, fieldsOf_encodeXKK]⟩

theorem ldB (x : Reg) : Statement (.ldB x) :=
  ⟨⟨"LD_B", 0xF033, 0xF0FF, .x, fun f => .ldB f.x⟩,
    by simp [catalog, catalogFirst, catalogSecond], encodeXKK_and_F0FF _ _ _, by
    simp [encode, fieldsOf_encodeXKK]⟩

theorem stRegs (x : Reg) : Statement (.stRegs x) :=
  ⟨⟨"ST_REGS", 0xF055, 0xF0FF, .x, fun f => .stRegs f.x⟩,
    by simp [catalog, catalogFirst, catalogSecond], encodeXKK_and_F0FF _ _ _, by
    simp [encode, fieldsOf_encodeXKK]⟩

theorem ldRegs (x : Reg) : Statement (.ldRegs x) :=
  ⟨⟨"LD_REGS", 0xF065, 0xF0FF, .x, fun f => .ldRegs f.x⟩,
    by simp [catalog, catalogFirst, catalogSecond], encodeXKK_and_F0FF _ _ _, by
    simp [encode, fieldsOf_encodeXKK]⟩

theorem unknown (raw : Word) : Statement (.unknown raw) := rfl

end EncodedForm

end Sys2Proof.Laws
end

