-- ==== Sys2Proof/Laws/Pixels.lean ====
section
/-! SUPPORT. The laws of the pixel buffer: a cell after a toggle, the canonical form, equality by cells, and what drawing
a sprite does to every cell and to the collision flag. -/

namespace Sys2Proof.Machine

namespace Pixels

theorem before_iff {p q : Nat × Nat} : before p q = true ↔ p.2 < q.2 ∨ (p.2 = q.2 ∧ p.1 < q.1) := by
  simp [before]

theorem not_before_self (p : Nat × Nat) : before p p = false := by
  simp [before]

theorem before_trans {p q r : Nat × Nat} (h : before p q = true) (h' : before q r = true) :
    before p r = true := by
  rw [before_iff] at *; omega

theorem before_or {p q : Nat × Nat} (h : p ≠ q) (h' : before p q = false) : before q p = true := by
  have : ¬ (p.2 < q.2 ∨ (p.2 = q.2 ∧ p.1 < q.1)) := by simpa [before] using h'
  have : ¬ (p.1 = q.1 ∧ p.2 = q.2) := fun ⟨a, b⟩ => h (Prod.ext a b)
  rw [before_iff]; omega

theorem get_iff {g : Pixels} {cx cy : Nat} : g.get cx cy = true ↔ (cx, cy) ∈ g := by
  simp [Pixels.get]

@[simp] theorem get_clear (cx cy : Nat) : clear.get cx cy = false := rfl

theorem mem_toggle {p q : Nat × Nat} {g : Pixels} (hg : g.Pairwise fun a b => before a b = true) :
    q ∈ toggle p g ↔ (q = p ∧ p ∉ g) ∨ (q ≠ p ∧ q ∈ g) := by
  induction g with
  | nil => simp [toggle]
  | cons r g ih =>
    obtain ⟨hr, hg⟩ := List.pairwise_cons.mp hg
    unfold toggle
    split
    · subst r
      have hp : p ∉ g := fun h => by have := hr p h; simp [not_before_self] at this
      by_cases hq : q = p
      · simp [hq, hp]
      · simp [hq]
    · rename_i hpr
      split
      · rename_i hb
        have hp : p ∉ r :: g := by
          intro h
          rcases List.mem_cons.mp h with h | h
          · exact hpr h
          · have := before_trans hb (hr p h); simp [not_before_self] at this
        by_cases hq : q = p
        · simp [hq, hp] at *
        · simp [hq]
      · rw [List.mem_cons, ih hg, List.mem_cons, List.mem_cons]
        by_cases hq : q = p
        · subst q; simp [hpr]
        · simp [hq]

theorem get_toggle {p : Nat × Nat} {g : Pixels} (hg : g.Pairwise fun a b => before a b = true) (cx cy : Nat) :
    (toggle p g).get cx cy = (g.get cx cy ^^ decide ((cx, cy) = p)) := by
  rw [Bool.eq_iff_iff, get_iff, mem_toggle hg]
  by_cases h : (cx, cy) = p
  · subst p
    cases hc : g.get cx cy
    · have : (cx, cy) ∉ g := fun h => by simp [get_iff.mpr h] at hc
      simp [this]
    · simp [get_iff.mp hc]
  · simp [h, get_iff]

/-- A toggle leaves every other cell alone, whatever the list. -/
theorem get_toggle_ne {p : Nat × Nat} (g : Pixels) {cx cy : Nat} (h : (cx, cy) ≠ p) :
    (toggle p g).get cx cy = g.get cx cy := by
  rw [Bool.eq_iff_iff, get_iff, get_iff]
  induction g with
  | nil => simp [toggle, h]
  | cons r g ih =>
    unfold toggle
    split
    · subst r; simp [h]
    · split
      · simp [h]
      · simp [ih]

theorem pairwise_toggle {p : Nat × Nat} {g : Pixels} (hg : g.Pairwise fun a b => before a b = true) :
    (toggle p g).Pairwise fun a b => before a b = true := by
  induction g with
  | nil => simp [toggle]
  | cons r g ih =>
    obtain ⟨hr, hg'⟩ := List.pairwise_cons.mp hg
    unfold toggle
    split
    · exact hg'
    · rename_i hpr
      split
      · rename_i hb
        refine List.pairwise_cons.mpr ⟨fun q hq => ?_, hg⟩
        rcases List.mem_cons.mp hq with rfl | hq
        · exact hb
        · exact before_trans hb (hr q hq)
      · rename_i hb
        refine List.pairwise_cons.mpr ⟨fun q hq => ?_, ih hg'⟩
        rcases (mem_toggle hg').mp hq with ⟨rfl, -⟩ | ⟨-, hq⟩
        · exact before_or hpr (by simpa using hb)
        · exact hr q hq

theorem wf_clear (w h : Nat) : wf clear w h := by simp [wf, clear]

/-- Toggling a cell inside the geometry keeps the canonical form. -/
theorem wf_toggle {g : Pixels} {w h : Nat} (hg : wf g w h) {p : Nat × Nat} (hp : p.1 < w ∧ p.2 < h) :
    wf (toggle p g) w h := by
  refine ⟨pairwise_toggle hg.1, fun q hq => ?_⟩
  rcases (mem_toggle hg.1).mp hq with ⟨rfl, -⟩ | ⟨-, hq⟩
  · exact hp
  · exact hg.2 q hq

/-- Two buffers in canonical form with the same cells are the same list. -/
theorem eq_of_get_eq {g g' : Pixels} (hg : g.Pairwise fun a b => before a b = true)
    (hg' : g'.Pairwise fun a b => before a b = true) (h : ∀ cx cy, g.get cx cy = g'.get cx cy) : g = g' := by
  have hm : ∀ p : Nat × Nat, p ∈ g ↔ p ∈ g' := fun p => by
    rw [← get_iff (cx := p.1) (cy := p.2), ← get_iff (cx := p.1) (cy := p.2), h]
  have nodup : ∀ {l : Pixels}, l.Pairwise (fun a b => before a b = true) → l.Nodup := fun hl =>
    hl.imp fun hab heq => by subst heq; simp [not_before_self] at hab
  refine List.Perm.eq_of_pairwise ?_ hg hg' ((List.perm_ext_iff_of_nodup (nodup hg) (nodup hg')).mpr hm)
  intro a b _ _ hab hba
  have := before_trans hab hba
  simp [not_before_self] at this

end Pixels

/-! ## Drawing a sprite -/

theorem mem_rowCells {px cy : Nat} {b : Byte} {p : Nat × Nat} :
    p ∈ rowCells px cy b ↔ p.2 = cy ∧ px ≤ p.1 ∧ p.1 < px + 8 ∧ b.getLsbD (7 - (p.1 - px)) = true := by
  obtain ⟨cx, r⟩ := p
  simp only [rowCells, List.mem_map, List.mem_filter, List.mem_range, Prod.mk.injEq]
  constructor
  · rintro ⟨c, ⟨hc, hb⟩, rfl, rfl⟩
    exact ⟨rfl, by omega, by omega, by simpa using hb⟩
  · rintro ⟨rfl, h1, h2, hb⟩
    exact ⟨cx - px, ⟨by omega, hb⟩, by omega, rfl⟩

/-- The cells that a sprite toggles (47_display.md R180, R182). -/
theorem mem_spriteCells {px py : Nat} {rows : List Byte} {p : Nat × Nat} :
    p ∈ spriteCells px py rows ↔
      py ≤ p.2 ∧ p.2 < py + rows.length ∧ px ≤ p.1 ∧ p.1 < px + 8 ∧
        (rows.getD (p.2 - py) 0).getLsbD (7 - (p.1 - px)) = true := by
  induction rows generalizing py with
  | nil => simp only [spriteCells, List.not_mem_nil, List.length_nil, false_iff]; omega
  | cons b rows ih =>
    simp only [spriteCells, List.mem_append, mem_rowCells, ih, List.length_cons]
    constructor
    · rintro (⟨h, h1, h2, hb⟩ | ⟨h0, h1, h2, h3, hb⟩)
      · exact ⟨by omega, by omega, h1, h2, by simpa [h] using hb⟩
      · refine ⟨by omega, by omega, h2, h3, ?_⟩
        rw [show p.2 - py = (p.2 - (py + 1)) + 1 by omega]
        simpa using hb
    · rintro ⟨h0, h1, h2, h3, hb⟩
      by_cases h : p.2 = py
      · exact .inl ⟨h, h2, h3, by simpa [h] using hb⟩
      · refine .inr ⟨by omega, by omega, h2, h3, ?_⟩
        rw [show p.2 - py = (p.2 - (py + 1)) + 1 by omega] at hb
        simpa using hb

theorem nodup_rowCells (px cy : Nat) (b : Byte) : (rowCells px cy b).Nodup := by
  unfold rowCells
  refine List.Nodup.map (fun c d h => by simpa using h) (List.nodup_range.filter _)

theorem nodup_spriteCells (px py : Nat) (rows : List Byte) : (spriteCells px py rows).Nodup := by
  induction rows generalizing py with
  | nil => simp [spriteCells]
  | cons b rows ih =>
    refine List.nodup_append.mpr ⟨nodup_rowCells px py b, ih (py + 1), ?_⟩
    rintro p hp q hq rfl
    have := (mem_rowCells.mp hp).1
    have := (mem_spriteCells.mp hq).1
    omega

theorem foldl_draw {cells : List (Nat × Nat)} (hc : cells.Nodup) {g : Pixels}
    (hg : g.Pairwise fun a b => Pixels.before a b = true) (hit : Bool) :
    let r := cells.foldl Pixels.draw (g, hit)
    (r.1.Pairwise fun a b => Pixels.before a b = true) ∧
      (∀ cx cy, r.1.get cx cy = (g.get cx cy ^^ decide ((cx, cy) ∈ cells))) ∧
      r.2 = (hit || cells.any fun p => g.get p.1 p.2) := by
  induction cells generalizing g hit with
  | nil => simp [hg]
  | cons p cells ih =>
    obtain ⟨hp, hc⟩ := List.nodup_cons.mp hc
    obtain ⟨h1, h2, h3⟩ := ih hc (Pixels.pairwise_toggle (p := p) hg) (hit || g.get p.1 p.2)
    refine ⟨h1, fun cx cy => ?_, ?_⟩
    · rw [List.foldl_cons, Pixels.draw, h2, Pixels.get_toggle hg]
      by_cases h : (cx, cy) = p
      · simp [h, hp]
      · simp [h]
    · rw [List.foldl_cons, Pixels.draw, h3, List.any_cons, Bool.or_assoc]
      congr 2
      have key : ∀ q ∈ cells, (Pixels.toggle p g).get q.1 q.2 = g.get q.1 q.2 := fun q hq => by
        have : q ≠ p := fun h => hp (h ▸ hq)
        rw [Pixels.get_toggle hg]; simp [this]
      rw [Bool.eq_iff_iff, List.any_eq_true, List.any_eq_true]
      exact exists_congr fun q => and_congr_right fun hq => by rw [key q hq]

/-- Every cell after a sprite: exclusive-ored with the sprite's bit (47_display.md R180). -/
theorem get_drawSprite {px py : Nat} {rows : List Byte} {g : Pixels}
    (hg : g.Pairwise fun a b => Pixels.before a b = true) (cx cy : Nat) :
    (drawSprite px py rows g).1.get cx cy = (g.get cx cy ^^ decide ((cx, cy) ∈ spriteCells px py rows)) :=
  (foldl_draw (nodup_spriteCells px py rows) hg false).2.1 cx cy

/-- A sprite leaves every cell that it does not toggle alone, whatever the list. -/
theorem get_drawSprite_outside {px py : Nat} {rows : List Byte} (g : Pixels) {cx cy : Nat}
    (h : (cx, cy) ∉ spriteCells px py rows) : (drawSprite px py rows g).1.get cx cy = g.get cx cy := by
  have key : ∀ (cells : List (Nat × Nat)) (acc : Pixels × Bool), (cx, cy) ∉ cells →
      (cells.foldl Pixels.draw acc).1.get cx cy = acc.1.get cx cy := by
    intro cells
    induction cells with
    | nil => intro acc _; rfl
    | cons p cells ih =>
      intro acc hc
      obtain ⟨hp, hc⟩ := not_or.mp (mt List.mem_cons.mpr hc)
      rw [List.foldl_cons, ih _ hc, Pixels.draw, Pixels.get_toggle_ne _ hp]
  exact key _ (g, false) h

/-- The collision flag: some cell of the sprite was set before (R180, R183). -/
theorem hit_drawSprite {px py : Nat} {rows : List Byte} {g : Pixels}
    (hg : g.Pairwise fun a b => Pixels.before a b = true) :
    (drawSprite px py rows g).2 = (spriteCells px py rows).any fun p => g.get p.1 p.2 := by
  have := (foldl_draw (nodup_spriteCells px py rows) hg false).2.2
  simpa [drawSprite] using this

/-- A sprite whose cells are inside the geometry keeps the canonical form. -/
theorem wf_drawSprite {px py w h : Nat} {rows : List Byte} {g : Pixels} (hg : Pixels.wf g w h)
    (hb : ∀ p ∈ spriteCells px py rows, p.1 < w ∧ p.2 < h) : Pixels.wf (drawSprite px py rows g).1 w h := by
  refine ⟨(foldl_draw (nodup_spriteCells px py rows) hg.1 false).1, fun p hp => ?_⟩
  have hget := get_drawSprite (px := px) (py := py) (rows := rows) hg.1 p.1 p.2
  rw [Pixels.get_iff.mpr hp] at hget
  by_cases hm : p ∈ spriteCells px py rows
  · exact hb p hm
  · have : g.get p.1 p.2 = true := by simpa [hm] using hget.symm
    exact hg.2 p (Pixels.get_iff.mp this)

theorem boxOutside_eq_false_iff {px py n : Nat} {s : State} :
    boxOutside px py n s = false ↔
      n = 0 ∨ (px + 7 < s.width.toNat ∧ py + n - 1 < s.height.toNat) := by
  simp only [boxOutside, decide_eq_false_iff_not]
  omega

/-- What the range check of R181 can answer. -/
theorem boxCheck_eq_ok_iff {e : Config.DrawEdge} {px py n : Nat} {s : State} {u : Unit} :
    boxCheck e px py n s = .ok u ↔ boxOutside px py n s = false := by
  cases e
  unfold boxCheck
  dsimp only
  cases boxOutside px py n s <;> simp

theorem boxCheck_eq_error_iff {e : Config.DrawEdge} {px py n : Nat} {s : State} {f : Fault} :
    boxCheck e px py n s = .error f ↔ boxOutside px py n s = true ∧ f = .displayRange px py n := by
  cases e
  unfold boxCheck
  dsimp only
  cases boxOutside px py n s <;> simp [@eq_comm _ f]

end Sys2Proof.Machine
end

