-- ==== Sys2Proof/Tests/Slice0.lean ====
section
/-! SUPPORT. The model's own tests: one step each, with the expected values of spec/95_test_vectors.md; and for every
obligation with hypotheses a concrete state and operands that meet them, clause by clause at the ends of their
ranges. -/

namespace Sys2Proof.Tests

open Sys2Proof.Machine Sys2Proof.Claim

/-! ## Building small states and reading answers -/

/-- The next state that a result holds, if any. -/
def nextOf (r : Result) : Option State :=
  match r with
  | .next t => some t
  | .fault _ | .refused _ => none

/-- The fault that a result holds, if any. -/
def faultOf (r : Result) : Option Fault :=
  match r with
  | .fault f => some f
  | .next _ | .refused _ => none

/-- The reset state with `pc` and some registers set. -/
def start (pc : Nat) (regs : List (Reg × Byte)) : State :=
  (regs.foldl (fun s p => s.writeV p.1 p.2) State.reset).withPc (BitVec.ofNat 12 pc)

/-- The same with `I` set. -/
def startI (pc i : Nat) (regs : List (Reg × Byte)) : State := (start pc regs).setI i

/-- The same with a stack pointer and one stack entry. -/
def startSp (pc : Nat) (sp : Fin 17) (k : Fin 16) (a : Addr) : State :=
  ((start pc []).withSp sp).withStack ((Vector.replicate 16 0).set k.val a)

/-- The state after one step that fetches the word `w`. -/
def after (w : Nat) (s : State) : Option State := nextOf (step (s.withFetchWord 16 w))

/-- The fault of one step that fetches the word `w`. -/
def faultAfter (w : Nat) (s : State) : Option Fault := faultOf (step (s.withFetchWord 16 w))

/-- Some read of the state after one step that fetches the word `w`. -/
def see {α : Type} (w : Nat) (s : State) (f : State → α) : Option α := (after w s).map f

/-! ## WellFormed: the one check, and terms that it refuses -/

theorem test_unknown_word_is_well_formed : Instr.wellFormed (.unknown 0x5121) = true := by decide
theorem test_unknown_refuses_template_words :
    Instr.wellFormed (.unknown 0x6005) = false ∧ Instr.wellFormed (.unknown 0x0000) = false ∧
    Instr.wellFormed (.unknown 0x00E0) = false ∧ Instr.wellFormed (.unknown 0x00EE) = false ∧
    Instr.wellFormed (.unknown 0xFFFF) = false ∧ Instr.wellFormed (.unknown 0x5120) = false ∧
    Instr.wellFormed (.unknown 0x8ABE) = false ∧ Instr.wellFormed (.unknown 0x9AB0) = false ∧
    Instr.wellFormed (.unknown 0xE0A1) = false ∧ Instr.wellFormed (.unknown 0xF065) = false := by decide

/-! ## Decode: a word of every constructor, written out from 30_encoding.md R86 (V310 of 95_test_vectors.md) -/

theorem test_decode_control_flow :
    decode 0b0000000011100000 = .cls ∧ decode 0b0000000011101110 = .ret ∧ decode 0x1ABC = .jp 0xABC ∧
    decode 0x2FFE = .call 0xFFE ∧ decode 0xB2FE = .jpV0 0x2FE := by decide
theorem test_decode_skips :
    decode 0b0011101001111111 = .seImm 0xA 0x7F ∧ decode 0x4207 = .sneImm 2 7 ∧ decode 0x5120 = .seReg 1 2 ∧
    decode 0x9AB0 = .sneReg 0xA 0xB := by decide
theorem test_decode_data_movement :
    decode 0b0110000000000101 = .ldImm 0 5 ∧ decode 0x7003 = .addImm 0 3 ∧ decode 0x8120 = .ldReg 1 2 ∧
    decode 0x8121 = .orReg 1 2 ∧ decode 0x8122 = .andReg 1 2 ∧ decode 0x8123 = .xorReg 1 2 := by decide
theorem test_decode_arithmetic :
    decode 0b1000101010110100 = .addReg 0xA 0xB ∧ decode 0x8F15 = .sub 0xF 1 ∧ decode 0x8346 = .shr 3 4 ∧
    decode 0x8017 = .subn 0 1 ∧ decode 0x8ABE = .shl 0xA 0xB := by decide
theorem test_decode_random_and_index :
    decode 0b1100000100001111 = .rnd 1 0x0F ∧ decode 0b1010001100000000 = .ldI 0x300 ∧ decode 0xF21E = .addI 2 ∧
    decode 0xF029 = .ldF 0 ∧ decode 0xF033 = .ldB 0 ∧ decode 0xF255 = .stRegs 2 ∧
    decode 0xFF65 = .ldRegs 0xF := by decide
theorem test_decode_display_and_input :
    decode 0b1101000100100101 = .drw 1 2 5 ∧ decode 0b1110111110011110 = .skp 0xF ∧ decode 0xE0A1 = .sknp 0 ∧
    decode 0xF507 = .ldVxDt 5 ∧ decode 0xF10A = .ldK 1 ∧ decode 0xF515 = .ldDt 5 ∧
    decode 0xF518 = .ldSt 5 := by decide
theorem test_decode_termination :
    decode 0x0000 = .nop ∧ decode 0b1111111111111111 = .halt ∧ decode 0xF0FF = .unknown 0xF0FF := by decide
theorem test_decode_neighbours_unknown :
    decode 0x0001 = .unknown 0x0001 ∧ decode 0x00E1 = .unknown 0x00E1 ∧ decode 0x0123 = .unknown 0x0123 ∧
    decode 0x5121 = .unknown 0x5121 ∧ decode 0x8AB8 = .unknown 0x8AB8 ∧ decode 0x8ABF = .unknown 0x8ABF ∧
    decode 0x9AB1 = .unknown 0x9AB1 ∧ decode 0xE19F = .unknown 0xE19F ∧ decode 0xF000 = .unknown 0xF000 := by
  decide
theorem test_decode_bytes :
    decodeBytes [0x60, 0x05, 0x70] = .ok (.ldImm 0 5, [0x70]) ∧ decodeBytes [0x60] = .error .truncated ∧
    decodeBytes [] = .error .truncated ∧ decodeTableWord 16 0xD125 = some (.drw 1 2 5) := ⟨rfl, rfl, rfl, rfl⟩

/-- V301: the fields of `0xD125`. -/
theorem test_fields : fieldsOf 0xD125 = ⟨1, 2, 0x25, 0x125, 5⟩ := by decide

/-! ## Reset (10_state.md R36, R41) -/

theorem test_reset_font :
    State.reset.mem.readBytes 0x00F 5 = [0xF0, 0x10, 0xF0, 0x10, 0xF0] ∧
    State.reset.mem.readBytes 0x04B 6 = [0xF0, 0x80, 0xF0, 0x80, 0x80, 0x00] := by decide
theorem test_memory_wf_reset : Memory.wf State.reset.mem := by decide
/-- Writing the value that an unlisted address reads as removes the entry. -/
theorem test_memory_canonical :
    (Memory.write [] 0x300 7).write 0x300 0 = [] ∧ Memory.write [] 0 0xF0 = [] ∧
    (Memory.write [] 0x301 1).write 0x300 2 = [(0x300, 2), (0x301, 1)] ∧ Memory.write [] 4096 1 = [] := by decide

/-! ## Control flow (V311) -/

theorem test_cls :
    see 0x00E0 ((start 0x200 [(15, 9)]).withGfx [(0, 0), (63, 31)])
      (fun t => (t.gfx, t.draw, t.readV 15, t.pc)) = some ([], true, 9, 0x202) := by decide
theorem test_ret :
    see 0x00EE (startSp 0x20C 1 0 0x206) (fun t => (t.sp, t.pc, t.stackEntry 0)) = some (0, 0x206, 0x206) ∧
    see 0x00EE (startSp 0x20C 16 15 0x300) (fun t => (t.sp, t.pc)) = some (15, 0x300) := by decide
theorem test_ret_underflow : faultAfter 0x00EE (start 0x200 []) = some .stackUnderflow := by decide
theorem test_jp :
    see 0x1FFE (start 0x200 []) State.pc = some 0xFFE ∧
    faultAfter 0x1FFF (start 0x200 []) = some (.pcRange 4095) := by decide
theorem test_call :
    see 0x220A (startSp 0x204 15 0 0) (fun t => (t.stackEntry 15, t.sp, t.pc)) = some (0x206, 16, 0x20A) := by
  decide
theorem test_call_faults :
    faultAfter 0x220A (startSp 0x204 16 0 0) = some .stackOverflow ∧
    faultAfter 0x2300 (start 0xFFE []) = some (.pcRange 4096) ∧
    faultAfter 0x2301 (start 0x204 []) = some (.pcRange 769) ∧
    faultAfter 0x2301 (startSp 0xFFE 16 0 0) = some .stackOverflow := by decide
theorem test_jpV0 :
    see 0xB2FE (start 0x200 [(2, 0x10)]) State.pc = some 0x2FE ∧
    see 0xBF00 (start 0x200 [(0, 0xFE)]) State.pc = some 0xFFE := by decide
theorem test_jpV0_faults :
    faultAfter 0xB300 (start 0x200 [(0, 1)]) = some (.pcRange 769) ∧
    faultAfter 0xBFFE (start 0x200 [(0, 0xFF)]) = some (.pcRange 4349) := by decide

/-! ## Skips (V312) -/

theorem test_seImm :
    see 0x3100 (start 0x200 []) State.pc = some 0x204 ∧ see 0x3100 (start 0x200 [(1, 3)]) State.pc = some 0x202 := by
  decide
theorem test_seImm_at_the_end :
    see 0x3100 (start 4090 []) State.pc = some 0xFFE ∧
    faultAfter 0x3100 (start 4092 []) = some (.pcRange 4096) ∧
    faultAfter 0x3100 (start 4094 [(1, 1)]) = some (.pcRange 4096) ∧
    faultAfter 0x3100 (start 4094 []) = some (.pcRange 4098) := by decide
theorem test_sneImm :
    see 0x4207 (start 0x200 [(2, 7)]) State.pc = some 0x202 ∧
    see 0x4207 (start 0x200 [(2, 8)]) State.pc = some 0x204 := by decide
theorem test_seReg :
    see 0x5340 (start 0x200 [(3, 0x2A), (4, 0x2A)]) State.pc = some 0x204 ∧
    see 0x5340 (start 0x200 [(3, 0x2A), (4, 0x2B)]) State.pc = some 0x202 := by decide
theorem test_sneReg :
    see 0x9340 (start 0x200 [(3, 1), (4, 2)]) State.pc = some 0x204 ∧
    see 0x9330 (start 0x200 [(3, 1)]) State.pc = some 0x202 := by decide

/-! ## Data movement and logic (V313) -/

theorem test_ldImm : see 0x6F07 (start 0x200 []) (fun t => t.readV 15) = some 7 := by decide
theorem test_addImm :
    see 0x7001 (start 0x200 [(0, 0xFF)]) (fun t => (t.readV 0, t.readV 15)) = some (0, 0) := by decide
theorem test_ldReg :
    see 0x8120 (start 0x200 [(2, 0x7C)]) (fun t => (t.readV 1, t.readV 2)) = some (0x7C, 0x7C) := by decide
theorem test_orReg :
    see 0x8121 (start 0x200 [(1, 0xF0), (2, 0x3C), (15, 1)]) (fun t => (t.readV 1, t.readV 15)) =
      some (0xFC, 1) := by decide
theorem test_andReg :
    see 0x8122 (start 0x200 [(1, 0xF0), (2, 0x3C), (15, 1)]) (fun t => (t.readV 1, t.readV 15)) =
      some (0x30, 1) := by decide
theorem test_xorReg :
    see 0x8123 (start 0x200 [(1, 0xF0), (2, 0x3C), (15, 1)]) (fun t => (t.readV 1, t.readV 15)) =
      some (0xCC, 1) := by decide

/-! ## Arithmetic with flags (V314) -/

theorem test_addReg :
    see 0x8014 (start 0x200 [(0, 0xFE), (1, 1)]) (fun t => (t.readV 0, t.readV 15)) = some (0xFF, 0) ∧
    see 0x8014 (start 0x200 [(0, 0xFF), (1, 1)]) (fun t => (t.readV 0, t.readV 15)) = some (0, 1) := by decide
theorem test_addReg_aliases :
    see 0x8F14 (start 0x200 [(15, 0xF0), (1, 0x20)]) (fun t => t.readV 15) = some 1 ∧
    see 0x80F4 (start 0x200 [(0, 1), (15, 1)]) (fun t => (t.readV 0, t.readV 15)) = some (2, 0) := by decide
theorem test_sub :
    see 0x8015 (start 0x200 [(0, 0x12), (1, 0x34)]) (fun t => (t.readV 0, t.readV 15)) = some (0xDE, 0) ∧
    see 0x8015 (start 0x200 [(0, 5), (1, 5)]) (fun t => (t.readV 0, t.readV 15)) = some (0, 1) := by decide
theorem test_subn :
    see 0x8017 (start 0x200 [(0, 0xC8), (1, 0x64)]) (fun t => (t.readV 0, t.readV 15)) = some (0x9C, 0) ∧
    see 0x8017 (start 0x200 [(0, 0x12), (1, 0x34)]) (fun t => (t.readV 0, t.readV 15)) = some (0x22, 1) := by decide
theorem test_shr :
    see 0x8346 (start 0x200 [(3, 5), (4, 0xF0)]) (fun t => (t.readV 3, t.readV 15, t.readV 4)) =
      some (2, 1, 0xF0) ∧
    see 0x8F06 (start 0x200 [(15, 3)]) (fun t => t.readV 15) = some 1 := by decide
theorem test_shl :
    see 0x834E (start 0x200 [(3, 0x81), (4, 1)]) (fun t => (t.readV 3, t.readV 15, t.readV 4)) = some (2, 1, 1) ∧
    see 0x8F0E (start 0x200 [(15, 0x80)]) (fun t => t.readV 15) = some 1 := by decide

/-! ## Random byte (V315): the draw is an input of the vector, so it stands here as the free value -/

theorem test_rnd_full_mask (s : State) (h : s.pc = 0x200) :
    ∃ t, exec (.rnd 1 0xFF) s = .next t ∧ t.readV 1 = Config.drawByte s.rng.seed s.rng.drawn := by
  refine ⟨(((consumeByte s).writeV 1 (s.nextByte &&& 0xFF))).withPc 0x202, ?_, ?_⟩
  · simp [exec, execRnd, advance, setPc, pcRejects, State.writeV, State.withV, consumeByte, State.withRng, h]
  · show (s.V.set 1 (s.nextByte &&& BitVec.allOnes 8))[1] = _
    rw [Vector.getElem_set_self, BitVec.and_allOnes, State.nextByte]
theorem test_rnd_zero_mask (s : State) (h : s.pc = 0x200) :
    ∃ t, exec (.rnd 1 0) s = .next t ∧ t.readV 1 = 0 ∧ t.rng.drawn = s.rng.drawn + 1 := by
  refine ⟨(((consumeByte s).writeV 1 (s.nextByte &&& 0))).withPc 0x202, ?_, ?_, rfl⟩
  · simp [exec, execRnd, advance, setPc, pcRejects, State.writeV, State.withV, consumeByte, State.withRng, h]
  · show (s.V.set 1 (s.nextByte &&& 0))[1] = _
    simp

/-! ## Memory-indexed (V316) -/

theorem test_ldI : see 0xAFFF (start 0x200 []) State.I = some 0x0FFF := by decide
theorem test_addI :
    see 0xF21E (startI 0x200 0x0FFE [(2, 5)]) (fun t => (t.I, t.readV 15)) = some (0x1003, 0) ∧
    see 0xF21E (startI 0x200 0xFFFF [(2, 1)]) State.I = some 0 := by decide
theorem test_ldF :
    see 0xF029 (start 0x200 [(0, 0x0F)]) State.I = some 0x4B ∧
    see 0xF029 (start 0x200 [(0, 0xFF)]) State.I = some 0x4FB := by decide
theorem test_ldB :
    see 0xF033 (startI 0x200 0xFFD [(0, 0x7B)]) (fun t => t.mem.readBytes 0xFFD 3) = some [1, 2, 3] := by decide
theorem test_ldB_faults :
    faultAfter 0xF033 (startI 0x200 0xFFE [(0, 0x7B)]) = some (.memoryRange 4096) ∧
    faultAfter 0xF033 (startI 0x200 0x1003 [(0, 0x7B)]) = some (.memoryRange 0x1003) ∧
    faultAfter 0xF033 (startI 0xFFE 0x300 [(0, 1)]) = some (.pcRange 4096) := by decide
theorem test_stRegs :
    see 0xF255 (startI 0x200 0x400 [(0, 0x11), (1, 0x22), (2, 0x33), (3, 0x44)])
      (fun t => (t.mem.readBytes 0x400 4, t.I)) = some ([0x11, 0x22, 0x33, 0], 0x400) := by decide
theorem test_stRegs_fault :
    faultAfter 0xF155 (startI 0x200 0xFFF []) = some (.memoryRange 4096) ∧
    see 0xF055 (startI 0x200 0xFFF [(0, 0x5A)]) (fun t => t.mem.read 0xFFF) = some 0x5A := by decide
theorem test_ldRegs :
    see 0xF465 (startI 0x200 0 [(5, 0x77)]) (fun t => (t.V.toList.take 6, t.I)) =
      some ([0xF0, 0x90, 0x90, 0x90, 0xF0, 0x77], 0) := by decide
theorem test_ldRegs_fault : faultAfter 0xF065 (startI 0x200 0x1000 []) = some (.memoryRange 0x1000) := by decide

/-! ## Display (V317): glyph 3 at column 5, row 2 -/

/-- The cells of the glyph. -/
def glyphCells : Pixels :=
  [(5, 2), (6, 2), (7, 2), (8, 2), (8, 3), (5, 4), (6, 4), (7, 4), (8, 4), (8, 5), (5, 6), (6, 6), (7, 6), (8, 6)]

theorem test_drw :
    see 0xD125 (startI 0x200 0xF [(1, 5), (2, 2), (15, 7)]) (fun t => (t.gfx, t.readV 15, t.draw)) =
      some (glyphCells, 0, true) ∧
    see 0xD125 ((startI 0x200 0xF [(1, 5), (2, 2)]).withGfx glyphCells) (fun t => (t.gfx, t.readV 15)) =
      some ([], 1) := by decide
theorem test_drw_faults :
    faultAfter 0xD125 (startI 0x200 0xF [(1, 57)]) = some (.displayRange 57 0 5) ∧
    faultAfter 0xD123 (startI 0x200 0xFFE [(1, 60)]) = some (.memoryRange 4096) ∧
    see 0xD120 (start 0x200 [(1, 200), (2, 200), (15, 1)]) (fun t => (t.readV 15, t.draw)) = some (0, true) := by
  decide

/-! ## Input and timers (V318) -/

theorem test_skp :
    see 0xE49E ((start 0x200 [(4, 15)]).withKeys (onlyKey 15)) State.pc = some 0x204 ∧
    see 0xE49E (start 0x200 [(4, 7)]) State.pc = some 0x202 := by decide
theorem test_sknp :
    see 0xE4A1 (start 0x200 [(4, 7)]) State.pc = some 0x204 ∧
    see 0xE4A1 ((start 0x200 [(4, 7)]).withKeys (onlyKey 7)) State.pc = some 0x202 := by decide
theorem test_key_faults :
    faultAfter 0xE49E (start 0x200 [(4, 16)]) = some (.keyRange 16) ∧
    faultAfter 0xE4A1 (start 0x200 [(4, 0xFF)]) = some (.keyRange 255) := by decide
theorem test_ldK :
    see 0xF10A ((start 0x200 []).withKeys (onlyKey 3)) (fun t => (t.blocking, t.blockTarget, t.pc, t.readV 1)) =
      some (true, 1, 0x202, 0) := by decide
theorem test_ldVxDt : see 0xF507 ((start 0x200 []).withDT 0x3C) (fun t => (t.readV 5, t.DT)) = some (0x3C, 0x3C) := by
  decide
theorem test_ldDt : see 0xF515 (start 0x200 [(5, 0x3C)]) State.DT = some 0x3C := by decide
theorem test_ldSt : see 0xF518 (start 0x200 [(5, 2)]) State.ST = some 2 := by decide

/-! ## Termination (V319) -/

theorem test_nop :
    see 0x0000 (start 0x200 []) State.pc = some 0x202 ∧ faultAfter 0x0000 (start 0xFFE []) = some (.pcRange 4096) := by
  decide
theorem test_halt : see 0xFFFF (start 0xFFE []) (fun t => (t.halted, t.quit, t.pc)) = some (true, false, 0xFFE) := by
  decide
theorem test_unknown : see 0x5121 (start 0x200 []) (fun t => (t.quit, t.halted, t.pc)) = some (true, false, 0x200) := by
  decide

/-! ## Events (V318, V319, V321) -/

/-- A machine that waits for a key with target register 1. -/
def waiting : State := ((start 0x202 []).withBlocking true).withBlockTarget 1

theorem test_resolve_lowest :
    (Event.after .resolveKey (waiting.withKeys ((onlyKey 7).set 9 true))).readV 1 = 7 ∧
    (Event.after .resolveKey (waiting.withKeys ((onlyKey 7).set 9 true))).blocking = false ∧
    Event.after .resolveKey waiting = waiting := by decide
theorem test_timers_saturate :
    (Event.after .timerTick (((start 0x200 []).withDT 1).withST 0)).DT = 0 ∧
    (Event.after .timerTick (((start 0x200 []).withDT 1).withST 0)).ST = 0 := by decide
theorem test_cycle_results :
    cycleResult waiting = .blocked ∧ cycleResult ((start 0x200 []).withHalted true) = .refused .terminalMachine ∧
    cycleResult ((start 0x200 []).withFault (some .stackOverflow)) = .refused .deadMachine := by decide

/-- A 17-byte image that is one byte and a header of 32 × 16. -/
def headed : List Byte :=
  [0x00, Config.headerSentinel.1, Config.headerSentinel.2, 0, 0, 0, 0, 0x20, 0x10, 0, 0, 0, 0, 0, 0, 0, 0]

theorem test_load_header :
    (nextOf (load headed State.reset)).map (fun t => (t.width, t.height)) = some (0x20, 0x10) := by
  simp [load, headed, State.reset, nextOf, Config.memSize, Config.entry, applyHeader, trailingHeader,
    Config.headerThreshold, hasSentinel, headerByte, Config.headerLen, Config.headerSentinelOff, resize, State.writeV,
    State.withV, State.withGfx, State.withHeight, State.withWidth, Config.headerWOff, Config.headerHOff]
theorem test_load_plain :
    (nextOf (load [0x60, 0x05, 0x70] State.reset)).map (fun t => (t.mem.readBytes 0x200 4, t.width, t.loadEnabled)) =
      some ([0x60, 0x05, 0x70, 0], 64, false) := by decide

/-- A second Load is refused and changes nothing (70_reset_and_hazards.md R256; log 9). -/
theorem test_second_load (s : State) (h : s.fault = none) (hl : s.loadEnabled = false) :
    Event.after (.load [1]) s = s := by
  simp [Event.after, Event.request, load, h, hl, settle]

/-! ## Witnesses: concrete states and operands that meet the hypotheses of the obligations

Each is named after its obligation and shows every clause at the ends of its range. -/

theorem reset_inv : State.reset.Inv :=
  ⟨by decide, by decide, by decide, by decide, by decide, by decide⟩

/-- A state at any even place with registers and `I` set is a good state. -/
theorem startI_inv (regs : List (Reg × Byte)) (i pc : Nat) (h : pc % 2 = 0) : (startI pc i regs).Inv := by
  have key : ∀ s : State, s.Inv → (regs.foldl (fun s p => s.writeV p.1 p.2) s).Inv := by
    induction regs with
    | nil => exact fun s hs => hs
    | cons p regs ih => exact fun s hs => ih _ ⟨hs.1, hs.2, hs.3, hs.4, hs.5, hs.6⟩
  have hs := key _ reset_inv
  refine ⟨?_, hs.2, hs.3, hs.4, hs.5, hs.6⟩
  show (BitVec.ofNat 12 pc).toNat % 2 = 0
  rw [BitVec.toNat_ofNat]; omega

theorem witness_DecodeOfEncode :
    Instr.wellFormed (.ldImm 0 5) = true ∧ Instr.wellFormed (.shl 0xA 0xB) = true ∧
    Instr.wellFormed (.unknown 0x5121) = true := by decide

theorem witness_StepRuns_stopped :
    ((start 0x200 []).withFault (some .stackOverflow)).fault ≠ none ∧
    Terminal ((start 0x200 []).withQuit true) ∧ Terminal ((start 0x200 []).withHalted true) ∧
    (waiting.fault = none ∧ waiting.quit = false ∧ waiting.halted = false ∧ waiting.blocking = true) :=
  ⟨by decide, ⟨by decide, .inl rfl⟩, ⟨by decide, .inr rfl⟩, by decide⟩
theorem witness_StepRuns_running :
    (start 4094 []).Running ∧ (start 4094 []).pc.toNat ≤ 4094 ∧ wordAtPc (start 0 []) = 0xF090 ∧
    (start 4095 []).Running ∧ (start 4095 []).pc.toNat = 4095 :=
  ⟨⟨by decide, by decide, by decide, by decide⟩, by decide, by decide, ⟨by decide, by decide, by decide, by decide⟩,
    by decide⟩

theorem witness_FetchFaults : (startI 4094 0 []).Inv ∧ (start 4095 []).pc.toNat = 4095 :=
  ⟨startI_inv _ _ _ rfl, by decide⟩
theorem witness_MemWrite : Memory.wf [] ∧ Memory.wf [(0x300, 7)] ∧ 4095 < 4096 ∧ 4095 ≤ 4095 := by decide

/-- The stored range covers the two bytes of the next word. -/
theorem witness_NextFetch :
    (startI 4092 4094 [(0, 0xFF), (1, 0xFF)]).Inv ∧ (startI 4092 4094 [(0, 0xFF), (1, 0xFF)]).pc.toNat ≤ 4092 ∧
    (startI 4092 4094 [(0, 0xFF), (1, 0xFF)]).I.toNat + 1 ≤ 4095 ∧
    (after 0xF155 (startI 4092 4094 [(0, 0xFF), (1, 0xFF)])).map wordAtPc = some 0xFFFF ∧
    (startI 4092 4093 [(0, 0x7B)]).Inv ∧ (startI 4092 4093 [(0, 0x7B)]).pc.toNat ≤ 4092 ∧
    (startI 4092 4093 [(0, 0x7B)]).I.toNat + 2 ≤ 4095 ∧
    (after 0xF033 (startI 4092 4093 [(0, 0x7B)])).map wordAtPc = some 0x0203 :=
  ⟨startI_inv _ _ _ rfl, by decide, by decide, by decide, startI_inv _ _ _ rfl, by decide, by decide, by decide⟩

theorem witness_EveryStepKeeps : (startI 0x200 0 []).Inv ∧ (nextOf (step (startI 0x200 0 []))).isSome = true :=
  ⟨startI_inv _ _ _ rfl, by decide⟩
/-- Events of each kind from a good state, among them one that faults and one that is refused. -/
theorem witness_EveryEventKeeps :
    (startI 4094 0 []).Inv ∧ faultOf (Event.request .cycle (startI 4094 0 [])) = some (.pcRange 4096) ∧
    faultOf (Event.request .cycle (startI 0x200 0 [])) = none :=
  ⟨startI_inv _ _ _ rfl, by decide, by decide⟩
theorem witness_Reachable : State.reset = Event.run [] State.reset := rfl
theorem witness_Faults :
    (startI 4092 0 []).Inv ∧ firstFault .nop (startI 4092 0 []) = none ∧
    firstFault .nop (startI 4094 0 []) = some (.pcRange 4096) ∧
    firstFault (.ldB 0) (startI 4094 4094 []) = some (.memoryRange 4096) ∧
    firstFault (.drw 1 2 1) (startI 0x200 0xFFF [(1, 57)]) = some (.displayRange 57 0 1) :=
  ⟨startI_inv _ _ _ rfl, by decide, by decide, by decide, by decide⟩
/-- An instruction of each family answers a next state, as EveryExecutorLeavesPcAsListed,
EveryInstructionChangesOnlyWhatItNames and OnlyClsAndDrwWritePixels assume. -/
theorem witness_exec_next :
    (nextOf (exec (.jp 0x204) (start 0x200 []))).isSome = true ∧
    (nextOf (exec (.stRegs 15) (startI 0x200 0xFF0 []))).isSome = true ∧
    (nextOf (exec (.drw 1 2 5) (startI 0x200 0xF [(1, 56), (2, 27)]))).isSome = true ∧
    (nextOf (exec .cls ((start 0x200 []).withDraw true))).map (fun t => (t.draw, t.gfx)) = some (true, []) := by decide
/-- The second register file differs in every register that LD_REG V1, V2 does not read. -/
theorem witness_OnlyTheListedRegistersAreRead :
    (Vector.replicate 16 (7 : Byte))[2] = (start 0x200 [(2, 7)]).readV 2 ∧
    (Vector.replicate 16 (7 : Byte))[1] ≠ (start 0x200 [(2, 7)]).readV 1 := by decide

/-- Where a plain effect completes and where it faults: the last even places. -/
theorem witness_plain_effect :
    (start 4092 []).pc.toNat % 2 = 0 ∧ (start 4092 []).pc.toNat ≤ 4092 ∧ (start 4094 []).pc.toNat % 2 = 0 ∧
    (start 4094 []).pc.toNat = 4094 ∧ (3 : Reg) ≠ 15 := by decide
/-- The places of the other witnesses are even, whatever registers and `I` hold. -/
theorem witness_even_places (i : Nat) (regs : List (Reg × Byte)) :
    ∀ pc ∈ [0x200, 4090, 4092, 4094], (startI pc i regs).pc.toNat % 2 = 0 ∧ (startI pc i regs).pc.toNat = pc := by
  intro pc h
  have : (startI pc i regs).pc = BitVec.ofNat 12 pc := rfl
  rw [this, BitVec.toNat_ofNat]
  simp at h
  omega
/-- A word under each mask that the encodings use. -/
theorem witness_encoded_as :
    (0xF000 &&& 0xD125 : Word) = 0xD000 ∧ (0xF00F &&& 0x8ABE : Word) = 0x800E ∧ (0xF0FF &&& 0xFF65 : Word) = 0xF065 ∧
    (0xFFFF &&& 0x00E0 : Word) = 0x00E0 := by decide

theorem witness_Ret :
    (start 0x200 []).sp.val = 0 ∧ (startSp 0x200 16 15 0x300).sp.val = (15 : Fin 16).val + 1 ∧
    ((startSp 0x200 16 15 0x300).stackEntry 15).toNat % 2 = 0 ∧
    (startSp 0x200 1 0 0xFFE).sp.val = (0 : Fin 16).val + 1 ∧
    ((startSp 0x200 1 0 0xFFE).stackEntry 0).toNat % 2 = 0 ∧ (startI 0x200 0 []).Inv :=
  ⟨by decide, by decide, by decide, by decide, by decide, startI_inv _ _ _ rfl⟩
theorem witness_Jump : (0xFFE : Addr).toNat % 2 = 0 ∧ (0xFFF : Addr).toNat % 2 = 1 := by decide
theorem witness_Call :
    (startSp 4092 16 0 0).pc.toNat % 2 = 0 ∧ (startSp 4092 16 0 0).sp.val = 16 ∧
    (startSp 4094 15 0 0).sp.val = (15 : Fin 16).val ∧ (startSp 4094 15 0 0).pc.toNat = 4094 ∧
    (startSp 4092 15 0 0).pc.toNat ≤ 4092 ∧ (0x301 : Addr).toNat % 2 = 1 ∧ (0x300 : Addr).toNat % 2 = 0 := by decide
theorem witness_ReturnUndoesCall :
    (start 4092 []).pc.toNat % 2 = 0 ∧
    (nextOf (exec (.call 0x300) (start 4092 []))).map (fun t => (t.sp, t.stackEntry 0)) = some (1, 0xFFE) := by decide
theorem witness_JumpWithOffset :
    (0xF00 : Addr).toNat + ((start 0x200 [(0, 0xFE)]).readV 0).toNat = 4094 ∧
    (0xF00 : Addr).toNat + ((start 0x200 [(0, 0xFF)]).readV 0).toNat = 4095 ∧
    (0xFFE : Addr).toNat + ((start 0x200 [(0, 2)]).readV 0).toNat = 4096 := by decide
theorem witness_skips :
    ((start 4090 []).readV 1 = 0 ∧ (start 4090 []).pc.toNat ≤ 4090) ∧
    ((start 4092 [(1, 1)]).readV 1 ≠ 0 ∧ (start 4092 [(1, 1)]).pc.toNat ≤ 4092) ∧
    ((start 4092 []).readV 1 = 0 ∧ 4092 ≤ (start 4092 []).pc.toNat) ∧
    ((start 4094 [(1, 1)]).readV 1 ≠ 0 ∧ (start 4094 [(1, 1)]).pc.toNat = 4094) ∧
    ((start 4094 []).readV 1 = (start 4094 []).readV 2 ∧ (start 4094 [(1, 1)]).readV 1 ≠ (start 4094 [(1, 1)]).readV 2) ∧
    ((0x5121 : Word) &&& 0xF000 = 0x5000 ∧ (0x5121 : Word) &&& 0x000F ≠ 0) := by decide

theorem witness_Decimal_and_Bulk :
    (4095 < (startI 0x200 4094 []).I.toNat + 2 ∧ (startI 0x200 4093 []).I.toNat + 2 ≤ 4095) ∧
    (4095 < (startI 0x200 0xFF1 []).I.toNat + (15 : Reg).val ∧ (startI 0x200 0xFF0 []).I.toNat + (15 : Reg).val ≤ 4095) ∧
    (4095 < (startI 0x200 4096 []).I.toNat + (0 : Reg).val ∧ (startI 0x200 4095 []).I.toNat + (0 : Reg).val ≤ 4095) ∧
    (startI 4094 4093 []).pc.toNat = 4094 ∧ (startI 4092 4093 []).pc.toNat ≤ 4092 ∧
    Memory.wf (startI 4092 4093 []).mem := by decide

/-- The rightmost and lowest box, rows that end at the last byte of memory, and the empty box. -/
theorem witness_Draw :
    let s := startI 4092 4091 [(1, 56), (2, 27)]
    (s.readV 1).toNat = 56 ∧ (s.readV 2).toNat = 27 ∧ s.pc.toNat % 2 = 0 ∧ s.pc.toNat ≤ 4092 ∧
    Pixels.wf s.gfx s.width.toNat s.height.toNat ∧ s.I.toNat + 5 - 1 ≤ 4095 ∧
    (56 + 7 < s.width.toNat ∧ 27 + 5 - 1 < s.height.toNat) := by decide
theorem witness_Draw_box : BoxInside (startI 4092 4091 []) 56 27 5 ∧ BoxInside (startI 4092 4091 []) 255 255 0 :=
  ⟨.inr (by decide), .inl rfl⟩
theorem witness_DrawFaults :
    (4095 < (startI 0x200 4092 []).I.toNat + 5 - 1) ∧ (¬ BoxInside (startI 0x200 0 []) 57 27 5) ∧
    (¬ BoxInside (startI 0x200 0 []) 56 28 5) ∧ BoxInside (startI 4094 0 []) 56 27 5 ∧
    (startI 4094 0 []).pc.toNat = 4094 :=
  ⟨by decide, fun h => by rcases h with h | h <;> revert h <;> decide,
    fun h => by rcases h with h | h <;> revert h <;> decide, .inr (by decide), by decide⟩
theorem witness_DrawTwice :
    let s := startI 4090 0 [(1, 56), (2, 27)]
    (1 : Reg) ≠ 15 ∧ (2 : Reg) ≠ 15 ∧ s.pc.toNat ≤ 4090 ∧ Pixels.wf s.gfx s.width.toNat s.height.toNat ∧
    s.I.toNat + 5 - 1 ≤ 4095 := by decide

theorem witness_key_skips :
    15 < ((start 0x200 [(4, 16)]).readV 4).toNat ∧ ((start 0x200 [(4, 15)]).readV 4).toNat ≤ 15 ∧
    ((start 4090 [(4, 15)]).withKeys (onlyKey 15)).keyDown 15 = true ∧ (start 4092 [(4, 15)]).keyDown 15 = false ∧
    ((start 4094 [(4, 0)]).withKeys (onlyKey 0)).keyDown 0 = true := by decide

theorem witness_Unknown : ∀ t ∈ catalog, (0x5121 : Word) &&& t.mask ≠ t.pattern := by decide
theorem witness_Terminal : Terminal (start 0x200 [] |>.withQuit true) ∧ Event.reset ∉ [Event.timerTick, .load [1]] :=
  ⟨⟨by decide, .inl rfl⟩, by decide⟩
theorem witness_Dead :
    ((start 0x200 []).withFault (some (.keyRange 16))).fault ≠ none ∧
    faultOf (step (start 4094 [])) = some (.pcRange 4096) := by decide
theorem witness_Blocked :
    (waiting.fault = none ∧ waiting.quit = false ∧ waiting.halted = false ∧ waiting.blocking = true) ∧
    ∀ e ∈ [Event.cycle, .setKeys (onlyKey 3), .timerTick, .clearDraw],
      e = .cycle ∨ (∃ ks, e = .setKeys ks) ∨ e = .timerTick ∨ e = .clearDraw :=
  ⟨by decide, by simp⟩
theorem witness_live_events :
    (start 0x200 []).fault = none ∧ waiting.fault = none ∧ ((start 0x200 []).withDraw true).draw = true := by decide
theorem witness_ResolveKey :
    (start 0x200 []).blocking = false ∧ (∀ k : Fin 16, waiting.keyDown k.val = false) ∧
    ((waiting.withKeys (onlyKey 15)).blocking = true ∧ (waiting.withKeys (onlyKey 15)).keyDown 15 = true ∧
      ∀ j : Fin 16, j < 15 → (waiting.withKeys (onlyKey 15)).keyDown j.val = false) := by decide
theorem witness_KeyWaitCompletes :
    (start 4092 []).fault = none ∧ (start 4092 []).pc.toNat % 2 = 0 ∧ (start 4092 []).pc.toNat ≤ 4092 ∧
    (nextOf (exec (.ldK 1) (start 4092 []))).isSome = true := by decide
theorem witness_Load :
    State.reset.fault = none ∧ State.reset.loadEnabled = true ∧ Memory.wf State.reset.mem ∧
    4096 < Config.entry + (List.replicate 3585 (0 : Byte)).length ∧
    Config.entry + (List.replicate 3584 (0 : Byte)).length ≤ 4096 := by
  simp only [List.length_replicate]; decide

/-- A Load with a header, one without, and one too short to be looked at. -/
theorem witness_LoadAppliesTheHeader :
    (∃ t, load headed State.reset = .next t) ∧
    (16 < headed.length ∧ (headed.getD (headed.length - 16 + 0) 0, headed.getD (headed.length - 16 + 1) 0) =
      Config.headerSentinel) ∧
    (∃ t, load [0x60, 0x05] State.reset = .next t) ∧ ¬ 16 < [(0x60 : Byte), 0x05].length ∧
    ∃ bytes : List Byte, (∃ t, load bytes State.reset = .next t) ∧ 16 < bytes.length ∧
      (bytes.getD (bytes.length - 16 + 0) 0, bytes.getD (bytes.length - 16 + 1) 0) ≠ Config.headerSentinel :=
  ⟨⟨_, rfl⟩, ⟨by decide, rfl⟩, ⟨_, rfl⟩, by decide,
    0 :: (Config.headerSentinel.1 + 1) :: List.replicate 15 0, ⟨_, rfl⟩, by simp, fun h => by
      have := congrArg Prod.fst h
      simp at this⟩

theorem witness_LoadComesOnce :
    (∃ t, load [] State.reset = .next t) ∧ State.reset.Running ∧ (nextOf (step State.reset)).isSome = true ∧
    Event.reset ∉ [Event.cycle, .timerTick] :=
  ⟨⟨_, rfl⟩, ⟨rfl, rfl, rfl, rfl⟩, by decide, by decide⟩

end Sys2Proof.Tests
end

section
/-! The laws of `Claim.Frame`: one for each update of the state. A frame that names the piece an update writes survives
the update, so a chain of updates is framed by a chain of these. -/

namespace Sys2Proof.Claim

open Sys2Proof.Machine

namespace Frame

/-- A state is framed by itself, whatever may change. -/
theorem refl (s : State) (c : Place → Prop) : Frame s s c := fun p _ => by cases p <;> rfl

section

variable {s t : State} {c : Place → Prop} (hf : Frame s t c)
include hf

theorem withPc (h : c .pc) (v : Addr) : Frame s (t.withPc v) c := fun p hp => by
  cases p with
  | pc => exact absurd h hp
  | _ => exact hf _ hp

theorem withI (h : c .index) (v : BitVec Config.indexWidth) : Frame s (t.withI v) c := fun p hp => by
  cases p with
  | index => exact absurd h hp
  | _ => exact hf _ hp

theorem withSp (h : c .stackPointer) (v : Fin 17) : Frame s (t.withSp v) c := fun p hp => by
  cases p with
  | stackPointer => exact absurd h hp
  | _ => exact hf _ hp

theorem withDT (h : c .delayTimer) (v : Byte) : Frame s (t.withDT v) c := fun p hp => by
  cases p with
  | delayTimer => exact absurd h hp
  | _ => exact hf _ hp

theorem withST (h : c .soundTimer) (v : Byte) : Frame s (t.withST v) c := fun p hp => by
  cases p with
  | soundTimer => exact absurd h hp
  | _ => exact hf _ hp

theorem withBlocking (h : c .blocking) (v : Bool) : Frame s (t.withBlocking v) c := fun p hp => by
  cases p with
  | blocking => exact absurd h hp
  | _ => exact hf _ hp

theorem withBlockTarget (h : c .blockTarget) (v : Reg) : Frame s (t.withBlockTarget v) c := fun p hp => by
  cases p with
  | blockTarget => exact absurd h hp
  | _ => exact hf _ hp

theorem withDraw (h : c .draw) (v : Bool) : Frame s (t.withDraw v) c := fun p hp => by
  cases p with
  | draw => exact absurd h hp
  | _ => exact hf _ hp

theorem withQuit (h : c .quit) (v : Bool) : Frame s (t.withQuit v) c := fun p hp => by
  cases p with
  | quit => exact absurd h hp
  | _ => exact hf _ hp

theorem withHalted (h : c .halted) (v : Bool) : Frame s (t.withHalted v) c := fun p hp => by
  cases p with
  | halted => exact absurd h hp
  | _ => exact hf _ hp

theorem withRng (h : c .randomSource) (v : RandomSource) : Frame s (t.withRng v) c := fun p hp => by
  cases p with
  | randomSource => exact absurd h hp
  | _ => exact hf _ hp

/-- A new register file that differs only in registers that the frame names. -/
theorem withV {v : Vector Byte 16} (h : ∀ x : Reg, ¬ c (.reg x) → v[x.val] = t.readV x) :
    Frame s (t.withV v) c := fun p hp => by
  cases p with
  | reg x => exact (h x hp).trans (hf (.reg x) hp)
  | _ => exact hf _ hp

/-- A new memory that differs only in bytes that the frame names. -/
theorem withMem {m : Memory} (h : ∀ a, ¬ c (.byte a) → m.read a = t.mem.read a) :
    Frame s (t.withMem m) c := fun p hp => by
  cases p with
  | byte a => exact (h a hp).trans (hf (.byte a) hp)
  | _ => exact hf _ hp

/-- A new pixel buffer that differs only in cells that the frame names. -/
theorem withGfx {g : Pixels} (h : ∀ cx cy, ¬ c (.pixel cx cy) → g.get cx cy = t.gfx.get cx cy) :
    Frame s (t.withGfx g) c := fun p hp => by
  cases p with
  | pixel cx cy => exact (h cx cy hp).trans (hf (.pixel cx cy) hp)
  | _ => exact hf _ hp

/-- A new stack that differs only in entries that the frame names. -/
theorem withStack {v : Vector Addr 16} (h : ∀ k : Fin 16, ¬ c (.stackSlot k) → v[k.val] = t.stackEntry k) :
    Frame s (t.withStack v) c := fun p hp => by
  cases p with
  | stackSlot k => exact (h k hp).trans (hf (.stackSlot k) hp)
  | _ => exact hf _ hp

theorem writeV {x : Reg} (h : c (.reg x)) (b : Byte) : Frame s (t.writeV x b) c :=
  hf.withV fun _ hy => readV_writeV_ne t b fun hyx => hy (hyx ▸ h)

theorem writeFlag (h : c (.reg flagReg)) (f : Bool) : Frame s (writeFlag f t) c := hf.writeV h (flagByte f)

theorem writeResultAndFlag {x : Reg} (hx : c (.reg x)) (h : c (.reg flagReg)) (r : Byte) (f : Bool) :
    Frame s (writeResultAndFlag x r f t) c := (hf.writeV hx r).writeFlag h f

/-- The registers that a run of bytes does not reach keep their values. -/
theorem writeRegs {bs : List Byte} (h : ∀ x : Reg, x.val < bs.length → c (.reg x)) :
    Frame s (t.writeRegs bs) c :=
  hf.withV fun x hx => by
    have hlen : bs.length ≤ x.val := Nat.le_of_not_lt (mt (h x) hx)
    exact (readV_writeRegs t bs x).trans (List.getD_eq_default _ _ hlen)

/-- A run of bytes stored from `a` on changes the bytes `a + k` alone. -/
theorem writeBytes {a : Nat} {bs : List Byte} (h : ∀ k < bs.length, c (.byte (a + k))) :
    Frame s (t.withMem (t.mem.writeBytes a bs)) c :=
  hf.withMem fun _ hb => Memory.read_writeBytes_outside t.mem a bs fun k hk hak => hb (hak ▸ h k hk)

/-- A sprite changes cells of its box alone. -/
theorem drawSprite {px py : Nat} {rows : List Byte}
    (h : ∀ cx cy, px ≤ cx → cx < px + 8 → py ≤ cy → cy < py + rows.length → c (.pixel cx cy)) :
    Frame s (t.withGfx (drawSprite px py rows t.gfx).1) c :=
  hf.withGfx fun cx cy hp => get_drawSprite_outside t.gfx fun hm => by
    obtain ⟨hy, hy', hx, hx', -⟩ := mem_spriteCells.mp hm
    exact hp (h cx cy hx hx' hy hy')

/-- A push changes the stack pointer and the slot that it fills. -/
theorem pushReturn (hsp : c .stackPointer) (h : c (.stackSlot t.pushSlot)) (r : Addr) :
    Frame s (pushReturn r t) c :=
  (hf.withStack fun k hk => by
    have hne : k ≠ t.pushSlot := fun hks => hk (hks ▸ h)
    exact (stackEntry_pushReturn r t k).trans (if_neg hne)).withSp hsp _

end

end Frame

end Sys2Proof.Claim
end

section
/-! One form for the meaning of every instruction: what is checked before `pc` is written, the state but for `pc`, and
where `pc` goes by the table of 40_pipeline.md R103 (`Claim.pcAfter`). `exec_eq` ties the form to `exec`; facts about
every instruction then need no case of `exec`. -/

namespace Sys2Proof.Meaning

open Sys2Proof.Machine Sys2Proof.Claim

/-- The check of a run of `n` bytes from `a` on (20_memory.md R63). -/
def rangeCheck (a n : Nat) : Except Fault Unit :=
  if outOfRange a n then .error (rangeFault a) else .ok ()

/-- The checks that an instruction makes before `pc` is written (60_exceptions.md R218, R220). -/
def check (i : Instr) (s : State) : Except Fault Unit :=
  match i with
  | .ret => if s.sp.val = 0 then .error .stackUnderflow else .ok ()
  | .call _ =>
    if s.sp.val = Config.stackDepth then .error .stackOverflow
    else if 4094 < s.pc.toNat + 2 then .error (.pcRange (s.pc.toNat + 2))
    else .ok ()
  | .skp x | .sknp x => (keyIndex (s.readV x)).map fun _ => ()
  | .ldB _ => rangeCheck s.I.toNat 3
  | .stRegs x | .ldRegs x => rangeCheck s.I.toNat (x.val + 1)
  | .drw x y n =>
    (rangeCheck s.I.toNat n.val).bind fun _ =>
      boxCheck Config.drawEdge (s.readV x).toNat (s.readV y).toNat n.val s
  | _ => .ok ()

/-- What an instruction does to the state besides moving `pc`. -/
def effect (i : Instr) (s : State) : State :=
  match i with
  | .cls => (s.withGfx Pixels.clear).withDraw true
  | .ret => popReturn s
  | .halt => s.withHalted true
  | .unknown _ => s.withQuit true
  | .call _ => pushReturn (BitVec.ofNat 12 (s.pc.toNat + 2)) s
  | .nop | .jp _ | .jpV0 _ | .seImm _ _ | .sneImm _ _ | .seReg _ _ | .sneReg _ _ | .skp _ | .sknp _ => s
  | .ldImm x kk => s.writeV x kk
  | .addImm x kk => s.writeV x (s.readV x + kk)
  | .ldReg x y => s.writeV x (s.readV y)
  | .orReg x y => s.writeV x (s.readV x ||| s.readV y)
  | .andReg x y => s.writeV x (s.readV x &&& s.readV y)
  | .xorReg x y => s.writeV x (s.readV x ^^^ s.readV y)
  | .addReg x y =>
    writeResultAndFlag x (s.readV x + s.readV y) (carryOut (s.readV x) (s.readV y)) s
  | .sub x y => writeResultAndFlag x (s.readV x - s.readV y) (notBorrow (s.readV x) (s.readV y)) s
  | .subn x y => writeResultAndFlag x (s.readV y - s.readV x) (notBorrow (s.readV y) (s.readV x)) s
  | .shr x _ => writeResultAndFlag x (s.readV x >>> 1) (lostLow (s.readV x)) s
  | .shl x _ => writeResultAndFlag x (s.readV x <<< 1) (lostHigh (s.readV x)) s
  | .rnd x kk => (consumeByte s).writeV x (s.nextByte &&& kk)
  | .ldI nnn => s.setI nnn.toNat
  | .addI x => s.setI (s.I.toNat + (s.readV x).toNat)
  | .ldF x => s.setI (Config.fontBase + Config.glyphBytes * (s.readV x).toNat)
  | .ldB x => s.withMem (s.mem.writeBytes s.I.toNat (decimalDigits (s.readV x)))
  | .stRegs x => s.withMem (s.mem.writeBytes s.I.toNat (s.readRegs (x.val + 1)))
  | .ldRegs x => s.writeRegs (s.mem.readBytes s.I.toNat (x.val + 1))
  | .drw x y n =>
    let drawn := drawSprite (s.readV x).toNat (s.readV y).toNat (s.mem.readBytes s.I.toNat n.val) s.gfx
    writeFlag drawn.2 ((s.withGfx drawn.1).withDraw true)
  | .ldVxDt x => s.writeV x s.DT
  | .ldDt x => s.withDT (s.readV x)
  | .ldSt x => s.withST (s.readV x)
  | .ldK x => (s.withBlockTarget x).withBlocking true

/-- HALT and UNKNOWN, which alone leave `pc` unwritten (49_termination.md R206, R207). -/
def stops : Instr → Bool
  | .halt | .unknown _ => true
  | _ => false

/-- The end of an instruction that has passed its checks: the write of `pc`, if it makes one. -/
def finish (i : Instr) (s : State) : Result :=
  if stops i then .next (effect i s) else setPc (pcAfter i s) (effect i s)

theorem finish_of_stops {i : Instr} (h : stops i = true) (s : State) : finish i s = .next (effect i s) := by
  simp [finish, h]

theorem finish_of_not_stops {i : Instr} (h : stops i = false) (s : State) :
    finish i s = setPc (pcAfter i s) (effect i s) := by
  simp [finish, h]

/-! ## The shared operations in this form -/

theorem skipIf_eq_setPc (c : Bool) (s : State) :
    skipIf c s = setPc (s.pc.toNat + if c = true then 4 else 2) s := by
  cases c <;> rfl

theorem skipIf_not_eq_setPc (c : Bool) (s : State) :
    skipIf (!c) s = setPc (s.pc.toNat + if c = true then 2 else 4) s := by
  cases c <;> rfl

theorem skipIf_beq (a b : Byte) (s : State) :
    skipIf (a == b) s = setPc (s.pc.toNat + if a = b then 4 else 2) s := by
  simp only [skipIf_eq_setPc, beq_iff_eq]

theorem skipIf_bne (a b : Byte) (s : State) :
    skipIf (a != b) s = setPc (s.pc.toNat + if a = b then 2 else 4) s := by
  simp only [bne, skipIf_not_eq_setPc, beq_iff_eq]

theorem orRaise_keyIndex (v : Byte) (k : Nat → Result) :
    orRaise (keyIndex v) k = orRaise ((keyIndex v).map fun _ => ()) fun _ => k v.toNat := by
  unfold keyIndex
  split <;> rfl

theorem orRaise_memWrite (a : Nat) (bs : List Byte) (s : State) (k : State → Result) :
    orRaise (memWrite a bs s) k =
      orRaise (rangeCheck a bs.length) fun _ => k (s.withMem (s.mem.writeBytes a bs)) := by
  unfold memWrite rangeCheck
  split <;> rfl

theorem orRaise_memRead (a n : Nat) (s : State) (k : List Byte → Result) :
    orRaise (memRead a n s) k =
      orRaise (rangeCheck a n) fun _ => k (s.mem.readBytes a n) := by
  unfold memRead rangeCheck
  split <;> rfl

/-! ## Every instruction in this form -/

/-- An instruction makes its checks, and then has its effect and moves `pc`. -/
theorem exec_eq (i : Instr) (s : State) : exec i s = orRaise (check i s) fun _ => finish i s := by
  cases i with
  | seImm x kk => exact skipIf_beq _ _ s
  | seReg x y => exact skipIf_beq _ _ s
  | sneImm x kk => exact skipIf_bne _ _ s
  | sneReg x y => exact skipIf_bne _ _ s
  | skp x =>
    refine (orRaise_keyIndex _ _).trans ?_
    simp only [skipIf_eq_setPc]
    rfl
  | sknp x =>
    refine (orRaise_keyIndex _ _).trans ?_
    simp only [Config.keyupMeansUp, if_true, skipIf_not_eq_setPc]
    rfl
  | ret => simp only [exec, execRet, check]; split <;> rfl
  | call nnn => simp only [exec, execCall, check]; split_ifs <;> rfl
  | ldB x => exact orRaise_memWrite _ _ _ _
  | stRegs x =>
    refine (orRaise_memWrite _ (s.readRegs (x.val + 1)) _ _).trans ?_
    rw [length_readRegs s x.isLt]
    rfl
  | ldRegs x => exact orRaise_memRead _ _ _ _
  | drw x y n =>
    refine (orRaise_memRead _ _ _ _).trans ?_
    simp only [check]
    cases rangeCheck s.I.toNat n.val <;> rfl
  | _ => rfl

/-- All that an instruction that answers a next state can have done: it passed its checks, and `pc` is written after
its effect unless it stops the machine. -/
theorem exec_eq_next {i : Instr} {s t : State} (h : exec i s = .next t) :
    check i s = .ok () ∧
      ((stops i = true ∧ t = effect i s) ∨
        (stops i = false ∧ pcAfter i s % 2 = 0 ∧ pcAfter i s ≤ 4094 ∧
          t = (effect i s).withPc (BitVec.ofNat 12 (pcAfter i s)))) := by
  rw [exec_eq, orRaise_eq_next_iff] at h
  obtain ⟨⟨⟩, hcheck, hfinish⟩ := h
  refine ⟨hcheck, ?_⟩
  cases hi : stops i with
  | true =>
    rw [finish_of_stops hi] at hfinish
    cases hfinish
    exact .inl ⟨rfl, rfl⟩
  | false =>
    rw [finish_of_not_stops hi] at hfinish
    exact .inr ⟨rfl, setPc_eq_next_iff.mp hfinish⟩

end Sys2Proof.Meaning
end

section
/-! The frame of every instruction (10_state.md R21 and the family files' rules). -/

namespace Sys2Proof.Meaning

open Sys2Proof.Machine Sys2Proof.Claim

/-- Every instruction that writes `pc` has it among what it may change. -/
theorem mayChange_pc {i : Instr} (h : stops i = false) (s : State) : mayChange i s .pc := by
  cases i with
  | halt | unknown _ => cases h
  | nop | jp _ | jpV0 _ | seImm _ _ | sneImm _ _ | seReg _ _ | sneReg _ _ | skp _ | sknp _ => exact rfl
  | _ => exact .inl rfl

/-- A push fills the slot of the number `sp` when it is below 16, which CALL checks. -/
theorem mayChange_call_slot {s : State} {nnn : Addr} (h : check (.call nnn) s = .ok ()) :
    mayChange (.call nnn) s (.stackSlot s.pushSlot) := by
  have hsp : s.sp.val ≠ 16 := fun h16 => by simp [check, Config.stackDepth, h16] at h
  exact .inr (.inr ⟨s.pushSlot, pushSlot_val hsp, rfl⟩)

/-- The effect of an instruction that passes its checks changes only what its rule names. -/
theorem effect_frame {i : Instr} {s : State} (h : check i s = .ok ()) :
    Frame s (effect i s) (mayChange i s) := by
  have hs := Frame.refl s (mayChange i s)
  cases i with
  | cls => exact (hs.withGfx fun cx cy hc => absurd (.inr (.inr ⟨cx, cy, rfl⟩)) hc).withDraw (.inr (.inl rfl)) true
  | ret => exact hs.withSp (.inr rfl) _
  | halt => exact hs.withHalted rfl true
  | unknown _ => exact hs.withQuit rfl true
  | call nnn => exact hs.pushReturn (.inr (.inl rfl)) (mayChange_call_slot h) _
  | nop | jp _ | jpV0 _ | seImm _ _ | sneImm _ _ | seReg _ _ | sneReg _ _ | skp _ | sknp _ => exact hs
  | ldImm x _ | addImm x _ | ldReg x _ | orReg x _ | andReg x _ | xorReg x _ | ldVxDt x =>
    exact hs.writeV (.inr ⟨x, rfl, rfl⟩) _
  | addReg x _ | sub x _ | subn x _ | shr x _ | shl x _ =>
    exact hs.writeResultAndFlag (.inr ⟨x, .inl rfl, rfl⟩) (.inr ⟨flagReg, .inr rfl, rfl⟩) _ _
  | rnd x _ => exact (hs.withRng (.inr (.inr rfl)) _).writeV (.inr (.inl rfl)) _
  | ldI _ | addI _ | ldF _ => exact hs.withI (.inr rfl) _
  | ldB x => exact hs.writeBytes fun k hk => .inr ⟨k, hk, rfl⟩
  | stRegs x =>
    refine hs.writeBytes fun k hk => .inr ⟨k, ?_, rfl⟩
    rw [length_readRegs s x.isLt] at hk
    omega
  | ldRegs x =>
    refine hs.writeRegs fun r hr => .inr ⟨r, ?_, rfl⟩
    rw [Memory.length_readBytes] at hr
    exact Nat.le_of_lt_succ hr
  | drw x y n =>
    refine Frame.writeFlag (.withDraw (hs.drawSprite fun cx cy hx hx' hy hy' => ?_) (.inr (.inl rfl)) true)
      (.inr (.inr (.inl rfl))) _
    rw [Memory.length_readBytes] at hy'
    exact .inr (.inr (.inr ⟨cx, cy, rfl, hx, hx', hy, hy'⟩))
  | ldK x => exact (hs.withBlockTarget (.inr (.inr rfl)) x).withBlocking (.inr (.inl rfl)) true
  | ldDt _ => exact hs.withDT (.inr rfl) _
  | ldSt _ => exact hs.withST (.inr rfl) _

/-- Settles O18: every next state is the effect of the instruction with `pc` written, and both are framed. -/
theorem everyInstructionChangesOnlyWhatItNames : Obligations.EveryInstructionChangesOnlyWhatItNames := by
  intro i s t h
  obtain ⟨hcheck, ⟨-, rfl⟩ | ⟨hi, -, -, rfl⟩⟩ := exec_eq_next h
  · exact effect_frame hcheck
  · exact (effect_frame hcheck).withPc (mayChange_pc hi s) _

end Sys2Proof.Meaning
end

section
/-! The pixel buffer and `draw` (10_state.md R32, 47_display.md R183). -/

namespace Sys2Proof.Meaning

open Sys2Proof.Machine Sys2Proof.Claim

/-- CLS and DRW set `draw`; every other instruction leaves the buffer and `draw` as they are. -/
theorem effect_gfx_draw (i : Instr) (s : State) :
    ((effect i s).draw = true ∧ (i = .cls ∨ ∃ x y n, i = .drw x y n)) ∨
      ((effect i s).gfx = s.gfx ∧ (effect i s).draw = s.draw) := by
  cases i with
  | cls => exact .inl ⟨rfl, .inl rfl⟩
  | drw x y n => exact .inl ⟨rfl, .inr ⟨x, y, n, rfl⟩⟩
  | _ => exact .inr ⟨rfl, rfl⟩

/-- The write of `pc` is outside the buffer and `draw`. -/
theorem exec_gfx_draw {i : Instr} {s t : State} (h : exec i s = .next t) :
    t.gfx = (effect i s).gfx ∧ t.draw = (effect i s).draw := by
  obtain ⟨-, ⟨-, rfl⟩ | ⟨-, -, -, rfl⟩⟩ := exec_eq_next h <;> exact ⟨rfl, rfl⟩

/-- Settles O20: by what each effect does to the buffer and `draw`. -/
theorem onlyClsAndDrwWritePixels : Obligations.OnlyClsAndDrwWritePixels := by
  intro i s t h
  obtain ⟨hgfx, hdraw⟩ := exec_gfx_draw h
  rw [hgfx, hdraw]
  obtain ⟨hset, hi⟩ | ⟨hgfx', hdraw'⟩ := effect_gfx_draw i s
  · exact ⟨fun _ => hset, fun _ => ⟨hset, hi⟩⟩
  · exact ⟨hdraw'.trans, fun hne => (hne.elim (· hgfx') (· hdraw')).elim⟩

end Sys2Proof.Meaning
end

section
/-! No register outside the column "reads" of 10_state.md R21 enters an instruction's answer: the three parts of its
meaning in two states that differ in such registers only. -/

namespace Sys2Proof.Machine

theorem readV_writeV_congr (s t : State) {x r : Reg} (hr : r = x) (b : Byte) :
    (s.writeV x b).readV r = (t.writeV x b).readV r := by
  simp [hr]

theorem readV_writeResultAndFlag_congr (s t : State) {x r : Reg} (hr : r = x ∨ r = flagReg) (b : Byte) (f : Bool) :
    (writeResultAndFlag x b f s).readV r = (writeResultAndFlag x b f t).readV r := by
  obtain rfl | rfl := hr <;> simp [readV_writeResultAndFlag]

theorem readV_writeRegs_congr (s t : State) {bs : List Byte} {r : Reg} (hr : r.val < bs.length) :
    (s.writeRegs bs).readV r = (t.writeRegs bs).readV r := by
  simp [readV_writeRegs, hr]

theorem readRegs_withV {s : State} {V' : Vector Byte 16} {n : Nat}
    (h : ∀ r : Reg, r.val < n → (s.withV V').readV r = s.readV r) :
    (s.withV V').readRegs n = s.readRegs n := by
  refine List.ext_getElem (by simp [State.readRegs]) fun k hk _ => ?_
  obtain ⟨hkn, hk16⟩ : k < n ∧ k < 16 := by simpa [State.readRegs] using hk
  simpa [State.readRegs, State.readV] using h ⟨k, hk16⟩ hkn

end Sys2Proof.Machine

namespace Sys2Proof.Meaning

open Sys2Proof.Machine Sys2Proof.Claim

section

variable {i : Instr} {s : State} {V' : Vector Byte 16}
  (h : ∀ r, readsReg i r → (s.withV V').readV r = s.readV r)
include h

theorem check_withV : check i (s.withV V') = check i s := by
  cases i with
  | skp x | sknp x => simp only [check, h x rfl]
  | drw x y n => simp only [check, h x (.inl rfl), h y (.inr rfl)]; rfl
  | _ => rfl

theorem pcAfter_withV : pcAfter i (s.withV V') = pcAfter i s := by
  cases i with
  | jpV0 nnn => simp only [pcAfter, h 0 rfl]
  | seImm x _ | sneImm x _ | skp x | sknp x => simp only [pcAfter, h x rfl]; rfl
  | seReg x y | sneReg x y => simp only [pcAfter, h x (.inl rfl), h y (.inr rfl)]; rfl
  | _ => rfl

/-- The two effects agree outside the register file. -/
theorem effect_withV : effect i (s.withV V') = (effect i s).withV (effect i (s.withV V')).V := by
  cases i with
  | addI x | ldF x | ldB x | ldDt x | ldSt x => simp only [effect, h x rfl]; rfl
  | stRegs x => simp only [effect, readRegs_withV fun r hr => h r (Nat.le_of_lt_succ hr)]; rfl
  | drw x y n => simp only [effect, h x (.inl rfl), h y (.inr rfl)]; rfl
  | _ => rfl

/-- The two effects agree on every register that the instruction writes. -/
theorem effect_withV_readV {r : Reg} (hr : writesReg i r) :
    (effect i (s.withV V')).readV r = (effect i s).readV r := by
  cases i with
  | ldImm x _ | rnd x _ | ldVxDt x => exact readV_writeV_congr _ _ hr _
  | addImm x _ | ldReg _ x =>
    simp only [effect, h x rfl]
    exact readV_writeV_congr _ _ hr _
  | orReg x y | andReg x y | xorReg x y =>
    simp only [effect, h x (.inl rfl), h y (.inr rfl)]
    exact readV_writeV_congr _ _ hr _
  | addReg x y | sub x y | subn x y =>
    simp only [effect, h x (.inl rfl), h y (.inr rfl)]
    exact readV_writeResultAndFlag_congr _ _ hr _ _
  | shr x _ | shl x _ =>
    simp only [effect, h x rfl]
    exact readV_writeResultAndFlag_congr _ _ hr _ _
  | ldRegs x =>
    refine readV_writeRegs_congr _ _ ?_
    rw [Memory.length_readBytes]
    exact Nat.lt_succ_of_le hr
  | drw x y n =>
    simp only [effect, h x (.inl rfl), h y (.inr rfl)]
    exact readV_writeV_congr _ _ hr _
  | _ => exact hr.elim

end

/-- A checked write of `pc` gives the same answer to two states that agree as `SameAnswer` asks. -/
theorem sameAnswer_setPc {i : Instr} {k : Nat} {s t : State} (heq : t = s.withV t.V)
    (hreg : ∀ x, writesReg i x → t.readV x = s.readV x) : SameAnswer i (setPc k s) (setPc k t) := by
  unfold setPc
  split
  · exact rfl
  · exact ⟨congrArg (State.withPc · _) heq, hreg⟩

theorem sameAnswer_finish {i : Instr} {s : State} {V' : Vector Byte 16}
    (h : ∀ r, readsReg i r → (s.withV V').readV r = s.readV r) :
    SameAnswer i (finish i s) (finish i (s.withV V')) := by
  have heq := effect_withV h
  have hreg := fun x => effect_withV_readV h (r := x)
  cases hi : stops i with
  | true =>
    rw [finish_of_stops hi, finish_of_stops hi]
    exact ⟨heq, hreg⟩
  | false =>
    rw [finish_of_not_stops hi, finish_of_not_stops hi, pcAfter_withV h]
    exact sameAnswer_setPc heq hreg

/-- Settles O19: the checks, the target of `pc` and the effect read no other register. -/
theorem onlyTheListedRegistersAreRead : Obligations.OnlyTheListedRegistersAreRead := by
  intro i s V' h
  rw [exec_eq, exec_eq, check_withV h]
  cases check i s with
  | error f => exact rfl
  | ok u => exact sameAnswer_finish h

end Sys2Proof.Meaning
end

section
/-! Reset: the table of 10_state.md R41 and the invariant of R42. -/

namespace Sys2Proof.Machine

/-- The 80 bytes of the font table lie glyph by glyph, five bytes each (10_state.md R36). -/
theorem unlisted_font : ∀ d < 16, ∀ r < 5,
    Memory.unlisted (Config.fontBase + 5 * d + r) = (Config.fontGlyphs.getD d []).getD r 0 := by
  decide

/-- Above the font table an unlisted byte is 0. -/
theorem unlisted_above_font {a : Nat} (h : Config.fontBase + 80 ≤ a) : Memory.unlisted a = 0 := by
  have hlen : Config.fontBytes.length ≤ a - Config.fontBase := Nat.le_sub_of_add_le' h
  rw [Memory.unlisted, if_pos (by omega), List.getD_eq_default _ _ hlen]

theorem readV_reset (x : Reg) : State.reset.readV x = 0 := by
  simp [State.readV, State.reset]

theorem stackEntry_reset (k : Fin 16) : State.reset.stackEntry k = 0 := by
  simp [State.stackEntry, State.reset]

theorem keyDown_reset (k : Nat) : State.reset.keyDown k = false := by
  by_cases h : k < 16 <;> simp [State.keyDown, State.reset, h]

/-- Settles O11: the fields by their definitions, the font table byte by byte. -/
theorem resetLeavesTheListedValues : Obligations.ResetLeavesTheListedValues :=
  ⟨readV_reset, rfl, rfl, fun d r hd hr => unlisted_font d hd r hr, fun _ => unlisted_above_font, rfl, rfl, rfl,
    stackEntry_reset, keyDown_reset, rfl, rfl, rfl, rfl, rfl, rfl, rfl, Pixels.get_clear, rfl, fun _ => ⟨_, rfl⟩⟩

/-- Settles O12: every clause is about a field's reset value. -/
theorem invariantHoldsAtReset : Obligations.InvariantHoldsAtReset where
  pcEven := rfl
  stackEven k := by rw [stackEntry_reset]; rfl
  oneTerminal h := Bool.noConfusion h.1
  blockedNotTerminal _ := ⟨rfl, rfl⟩
  memCanonical := wf_reset_mem
  gfxCanonical := Pixels.wf_clear _ _

end Sys2Proof.Machine
end

section
/-! Fetch and store (20_memory.md R64, R65, R70; 40_pipeline.md R105): a byte map that agrees with the bytes stored
and, elsewhere, with the old memory is the memory after the store, so it gives the word of the next fetch. -/

namespace Sys2Proof.Machine

open Sys2Proof.Claim

/-- An even `pc` leaves room for the word that a fetch reads. -/
theorem State.Inv.pc_le {s : State} (h : s.Inv) : s.pc.toNat ≤ 4094 := by
  have heven := h.pcEven
  have hlt := s.pc.isLt
  omega

theorem fetch_eq_error_iff {s : State} {f : Fault} :
    fetch s = .error f ↔ outOfRange s.pc.toNat 2 = true ∧ f = rangeFault s.pc.toNat := by
  rw [← memRead_eq_error_iff, fetch]
  cases memRead s.pc.toNat 2 s <;> simp [Except.map]

/-- Settles O7: an even `pc` is at most 4094; at 4095 the second byte lies outside the memory. -/
theorem fetchFaultsInNoGoodState : Obligations.FetchFaultsInNoGoodState := by
  refine fun s => ⟨fun hs => fetch_eq_ok hs.pc_le, fun hpc => fetch_eq_error_iff.mpr ?_⟩
  rw [hpc]
  decide

/-- Settles O8: the two answers of `memWrite` for a run of one byte. -/
theorem memWriteStoresOneByte : Obligations.MemWriteStoresOneByte := by
  intro a v s hm
  constructor
  · intro ha
    have hmax : max a Config.memSize = a := Nat.max_eq_left ha
    refine memWrite_eq_error_iff.mpr ⟨decide_eq_true ⟨Nat.one_pos, ha⟩, ?_⟩
    rw [rangeFault, hmax]
  · intro ha
    have hlt : a < Config.memSize := Nat.lt_succ_of_le ha
    have hr : outOfRange a [v].length = false := outOfRange_eq_false_iff.mpr (.inr hlt)
    refine ⟨_, memWrite_eq_ok_iff.mpr ⟨hr, rfl⟩, Memory.read_write_same hm hlt v, ?_⟩
    refine (Frame.refl s _).writeBytes fun k hk => ?_
    rw [Nat.lt_one_iff.mp hk, Nat.add_zero]

/-- The three digits (46_memory_indexed.md R168) as numbers: each fits in a byte. -/
theorem toNat_getD_decimalDigits (v : Byte) :
    ((decimalDigits v).getD 0 0).toNat = v.toNat / 100 ∧
      ((decimalDigits v).getD 1 0).toNat = v.toNat / 10 % 10 ∧
      ((decimalDigits v).getD 2 0).toNat = v.toNat % 10 := by
  have hv := v.isLt
  exact ⟨Nat.mod_eq_of_lt (by omega), Nat.mod_eq_of_lt (by omega), Nat.mod_eq_of_lt (by omega)⟩

/-- The memory after a store, given by any map that has the stored bytes and is elsewhere as the memory was. -/
theorem Memory.read_writeBytes_eq {m : Memory} (hm : wf m) {a : Nat} {bs : List Byte}
    (ha : a + bs.length ≤ Config.memSize) {b : Nat → Byte} (hin : ∀ k < bs.length, b (a + k) = bs.getD k 0)
    (hout : ∀ c, (∀ k < bs.length, c ≠ a + k) → b c = read m c) (c : Nat) :
    read (writeBytes m a bs) c = b c := by
  by_cases hc : ∃ k < bs.length, c = a + k
  · obtain ⟨k, hk, rfl⟩ := hc
    rw [read_writeBytes_inside hm ha hk 0, hin k hk]
  · have hne : ∀ k < bs.length, c ≠ a + k := fun k hk hck => hc ⟨k, hk, hck⟩
    rw [read_writeBytes_outside m a bs hne, hout c hne]

/-- 20_memory.md R70: a fetch after a store reads the word of that map. -/
theorem fetch_of_writeBytes {s : State} (hm : Memory.wf s.mem) {a : Nat} {bs : List Byte}
    (ha : a + bs.length ≤ Config.memSize) {b : Nat → Byte} (hin : ∀ k < bs.length, b (a + k) = bs.getD k 0)
    (hout : ∀ c, (∀ k < bs.length, c ≠ a + k) → b c = s.mem.read c) {p : Nat} (hp : p ≤ 4094) :
    fetch ((s.withMem (s.mem.writeBytes a bs)).withPc (BitVec.ofNat 12 p)) = .ok (b p ++ b (p + 1)) := by
  have hread := Memory.read_writeBytes_eq hm ha hin hout
  have hpc := toNat_ofNat_of_le hp
  rw [fetch_eq_ok (hpc.trans_le hp)]
  simp only [State.withPc_pc, State.withPc_mem, State.withMem_mem, hpc, hread, wordOfBytes]

end Sys2Proof.Machine

namespace Sys2Proof.Meaning

open Sys2Proof.Machine Sys2Proof.Claim

theorem rangeCheck_eq_ok {a n : Nat} (h : a + n ≤ Config.memSize) : rangeCheck a n = .ok () := by
  rw [rangeCheck, outOfRange_eq_false_iff.mpr (.inr h)]
  rfl

/-- An instruction that passes its checks and has a legal target for `pc` answers a next state. -/
theorem exec_eq_next_of_check {i : Instr} {s : State} (hi : stops i = false) (hcheck : check i s = .ok ())
    (heven : pcAfter i s % 2 = 0) (hle : pcAfter i s ≤ 4094) :
    exec i s = .next ((effect i s).withPc (BitVec.ofNat 12 (pcAfter i s))) := by
  rw [exec_eq, hcheck, orRaise_ok, finish_of_not_stops hi]
  exact setPc_eq_next_iff.mpr ⟨heven, hle, rfl⟩

/-- An instruction that stores a run of bytes at `I` and advances by 2: it completes, and the next fetch reads what it
stored. -/
theorem next_fetch_of_store {i : Instr} {s : State} {bs : List Byte} (hs : s.Inv) (hpc : s.pc.toNat ≤ 4092)
    (ha : s.I.toNat + bs.length ≤ Config.memSize) (hi : stops i = false)
    (hcheck : check i s = rangeCheck s.I.toNat bs.length) (hafter : pcAfter i s = s.pc.toNat + 2)
    (heffect : effect i s = s.withMem (s.mem.writeBytes s.I.toNat bs)) :
    ∃ t, exec i s = .next t ∧ t.pc.toNat = s.pc.toNat + 2 ∧
      ∀ b : Nat → Byte, (∀ k < bs.length, b (s.I.toNat + k) = bs.getD k 0) →
        (∀ c, (∀ k < bs.length, c ≠ s.I.toNat + k) → b c = s.mem.read c) →
        fetch t = .ok (b (s.pc.toNat + 2) ++ b (s.pc.toNat + 3)) := by
  have hle : s.pc.toNat + 2 ≤ 4094 := Nat.add_le_add_right hpc 2
  have heven : (s.pc.toNat + 2) % 2 = 0 := by rw [Nat.add_mod_right, hs.pcEven]
  have hexec := exec_eq_next_of_check hi (hcheck.trans (rangeCheck_eq_ok ha)) (hafter ▸ heven) (hafter ▸ hle)
  rw [hafter, heffect] at hexec
  exact ⟨_, hexec, toNat_ofNat_of_le hle, fun b hin hout => fetch_of_writeBytes hs.memCanonical ha hin hout hle⟩

/-- Settles O9: the bytes stored are the registers `V[0]` to `V[x]`. -/
theorem nextFetchSeesBulkStore : Obligations.NextFetchSeesBulkStore := by
  intro x s hs hpc hI
  have hlen : (s.readRegs (x.val + 1)).length = x.val + 1 := length_readRegs s x.isLt
  obtain ⟨t, hexec, htpc, hfetch⟩ := next_fetch_of_store (i := .stRegs x) (bs := s.readRegs (x.val + 1)) hs hpc
    (by rw [hlen]; exact Nat.succ_le_succ hI) rfl (by rw [hlen]; rfl) rfl rfl
  refine ⟨t, hexec, htpc, fun b hreg hout => hfetch b (fun k hk => ?_) fun c hc => hout c fun r hr => ?_⟩
  · rw [hlen] at hk
    have hk16 : k < 16 := hk.trans_le x.isLt
    exact (hreg ⟨k, hk16⟩ (Nat.le_of_lt_succ hk)).trans (getD_readRegs s ⟨k, hk16⟩ 0 hk).symm
  · exact hc r.val (hlen.symm ▸ Nat.lt_succ_of_le hr)

/-- Settles O10: the bytes stored are the three digits. -/
theorem nextFetchSeesDecimalStore : Obligations.NextFetchSeesDecimalStore := by
  intro x s hs hpc hI
  obtain ⟨t, hexec, htpc, hfetch⟩ := next_fetch_of_store (i := .ldB x) (bs := decimalDigits (s.readV x)) hs hpc
    (Nat.succ_le_succ hI) rfl rfl rfl rfl
  refine ⟨t, hexec, htpc, fun b h0 h1 h2 hout => hfetch b (fun k hk => ?_) hout⟩
  obtain ⟨hundreds, tens, ones⟩ := toNat_getD_decimalDigits (s.readV x)
  match k, hk with
  | 0, _ => exact BitVec.eq_of_toNat_eq (h0.trans hundreds.symm)
  | 1, _ => exact BitVec.eq_of_toNat_eq (h1.trans tens.symm)
  | 2, _ => exact BitVec.eq_of_toNat_eq (h2.trans ones.symm)

end Sys2Proof.Meaning
end

section
/-! The decoder and the encoder agree (30_encoding.md R82 to R88). A word that a template accepts is the template's
fixed bits and the fields of its shape (R83), so that encoding gives it back; the words that no template accepts are
those of the table of R88. -/

namespace Sys2Proof.Laws

/-- The forms of all 37 instructions together. -/
theorem EncodedForm.statement (i : Instr) : Statement i :=
  match i with
  | .cls => cls
  | .ret => ret
  | .nop => nop
  | .halt => halt
  | .jp nnn => jp nnn
  | .call nnn => call nnn
  | .seImm x kk => seImm x kk
  | .sneImm x kk => sneImm x kk
  | .seReg x y => seReg x y
  | .ldImm x kk => ldImm x kk
  | .addImm x kk => addImm x kk
  | .ldReg x y => ldReg x y
  | .orReg x y => orReg x y
  | .andReg x y => andReg x y
  | .xorReg x y => xorReg x y
  | .addReg x y => addReg x y
  | .sub x y => sub x y
  | .shr x y => shr x y
  | .subn x y => subn x y
  | .shl x y => shl x y
  | .sneReg x y => sneReg x y
  | .ldI nnn => ldI nnn
  | .jpV0 nnn => jpV0 nnn
  | .rnd x kk => rnd x kk
  | .drw x y n => drw x y n
  | .skp x => skp x
  | .sknp x => sknp x
  | .ldVxDt x => ldVxDt x
  | .ldK x => ldK x
  | .ldDt x => ldDt x
  | .ldSt x => ldSt x
  | .addI x => addI x
  | .ldF x => ldF x
  | .ldB x => ldB x
  | .stRegs x => stRegs x
  | .ldRegs x => ldRegs x
  | .unknown raw => unknown raw

end Sys2Proof.Laws

namespace Sys2Proof

/-! ## A word from its fixed bits and its fields, one lemma for each shape -/

section
variable {m : BitVec 4} {w p : Word}

theorem eq_of_and_FFFF (h : w &&& 0xFFFF = p) : p = w := h.symm.trans (and_FFFF w)

theorem encodeA_fieldsOf (h : w &&& 0xF000 = m ++ (0#4 ++ (0#4 ++ 0#4))) : encodeA m (fieldsOf w).nnn = w := by
  obtain ⟨a, b, c, d, rfl⟩ := exists_nibbles w
  obtain ⟨rfl, -⟩ := append_nibble_inj.mp ((nibbles_and_F000 a b c d).symm.trans h)
  rw [fieldsOf_nibbles, encodeA]

theorem encodeXKK_fieldsOf (h : w &&& 0xF000 = m ++ (0#4 ++ (0#4 ++ 0#4))) :
    encodeXKK m (fieldsOf w).x (fieldsOf w).kk = w := by
  obtain ⟨a, b, c, d, rfl⟩ := exists_nibbles w
  obtain ⟨rfl, -⟩ := append_nibble_inj.mp ((nibbles_and_F000 a b c d).symm.trans h)
  rw [fieldsOf_nibbles, encodeXKK, nibbleBits_toFin]

theorem encodeXKK_fieldsOf_x {kk : Byte} (h : w &&& 0xF0FF = m ++ (0#4 ++ kk)) :
    encodeXKK m (fieldsOf w).x kk = w := by
  obtain ⟨a, b, c, d, rfl⟩ := exists_nibbles w
  obtain ⟨rfl, hlow⟩ := append_nibble_inj.mp ((nibbles_and_F0FF a b c d).symm.trans h)
  obtain ⟨-, rfl⟩ := append_nibble_inj.mp hlow
  rw [fieldsOf_nibbles, encodeXKK, nibbleBits_toFin]

theorem encodeXYN_fieldsOf (h : w &&& 0xF000 = m ++ (0#4 ++ (0#4 ++ 0#4))) :
    encodeXYN m (fieldsOf w).x (fieldsOf w).y (nibbleBits (fieldsOf w).n) = w := by
  obtain ⟨a, b, c, d, rfl⟩ := exists_nibbles w
  obtain ⟨rfl, -⟩ := append_nibble_inj.mp ((nibbles_and_F000 a b c d).symm.trans h)
  simp only [fieldsOf_nibbles, encodeXYN, nibbleBits_toFin]

theorem encodeXYN_fieldsOf_xy {n : BitVec 4} (h : w &&& 0xF00F = m ++ (0#4 ++ (0#4 ++ n))) :
    encodeXYN m (fieldsOf w).x (fieldsOf w).y n = w := by
  obtain ⟨a, b, c, d, rfl⟩ := exists_nibbles w
  obtain ⟨rfl, hlow⟩ := append_nibble_inj.mp ((nibbles_and_F00F a b c d).symm.trans h)
  obtain ⟨-, hlow⟩ := append_nibble_inj.mp hlow
  obtain ⟨-, rfl⟩ := append_nibble_inj.mp hlow
  simp only [fieldsOf_nibbles, encodeXYN, nibbleBits_toFin]

/-- What a template makes of a word it accepts encodes to that word: each row of the catalog by the lemma of its
shape. -/
theorem encode_build_of_accepts :
    ∀ t ∈ catalog, w &&& t.mask = t.pattern → encode (t.build (fieldsOf w)) = w := by
  simp only [catalog, catalogFirst, catalogSecond, List.cons_append, List.nil_append, List.forall_mem_cons]
  exact ⟨(eq_of_and_FFFF ·), (eq_of_and_FFFF ·), (eq_of_and_FFFF ·), (eq_of_and_FFFF ·),
    (encodeA_fieldsOf ·), (encodeA_fieldsOf ·), (encodeXKK_fieldsOf ·), (encodeXKK_fieldsOf ·),
    (encodeXYN_fieldsOf_xy ·), (encodeXKK_fieldsOf ·), (encodeXKK_fieldsOf ·), (encodeXYN_fieldsOf_xy ·),
    (encodeXYN_fieldsOf_xy ·), (encodeXYN_fieldsOf_xy ·), (encodeXYN_fieldsOf_xy ·), (encodeXYN_fieldsOf_xy ·),
    (encodeXYN_fieldsOf_xy ·), (encodeXYN_fieldsOf_xy ·), (encodeXYN_fieldsOf_xy ·), (encodeXYN_fieldsOf_xy ·),
    (encodeXYN_fieldsOf_xy ·), (encodeA_fieldsOf ·), (encodeA_fieldsOf ·), (encodeXKK_fieldsOf ·),
    (encodeXYN_fieldsOf ·), (encodeXKK_fieldsOf_x ·), (encodeXKK_fieldsOf_x ·), (encodeXKK_fieldsOf_x ·),
    (encodeXKK_fieldsOf_x ·), (encodeXKK_fieldsOf_x ·), (encodeXKK_fieldsOf_x ·), (encodeXKK_fieldsOf_x ·),
    (encodeXKK_fieldsOf_x ·), (encodeXKK_fieldsOf_x ·), (encodeXKK_fieldsOf_x ·), (encodeXKK_fieldsOf_x ·),
    List.forall_mem_nil _⟩

end

/-! ## What the decoder answers -/

/-- The decoder's answer is a template's reading of a word it accepts, or the sentinel (R85). -/
theorem decode_cases (w : Word) :
    (∃ t ∈ catalog, w &&& t.mask = t.pattern ∧ decode w = t.build (fieldsOf w)) ∨
      (∀ t ∈ catalog, w &&& t.mask ≠ t.pattern) ∧ decode w = .unknown w := by
  by_cases h : ∃ t ∈ catalog, w &&& t.mask = t.pattern
  · obtain ⟨t, ht, hw⟩ := h
    exact .inl ⟨t, ht, hw, decode_of_accepts ht hw⟩
  · have hno : ∀ t ∈ catalog, w &&& t.mask ≠ t.pattern := fun t ht hw => h ⟨t, ht, hw⟩
    exact .inr ⟨hno, decode_of_none hno⟩

theorem build_ne_unknown : ∀ t ∈ catalog, ∀ (f : Fields) (raw : Word), t.build f ≠ .unknown raw := by
  simp [catalog, catalogFirst, catalogSecond]

theorem decode_eq_unknown_iff {w : Word} :
    decode w = .unknown w ↔ ∀ t ∈ catalog, w &&& t.mask ≠ t.pattern :=
  ⟨fun h t ht hw => build_ne_unknown t ht (fieldsOf w) w ((decode_of_accepts ht hw).symm.trans h), decode_of_none⟩

/-! ## The masks of the catalog as numbers

The masks stand as `simp` writes a literal. Of the pattern only its own fixed bits may be set (R84). -/

section
variable {w p : Word}

theorem and_F000_eq_iff : w &&& 0xF000#16 = p ↔ w.toNat / 4096 = p.toNat / 4096 ∧ p.toNat % 4096 = 0 := by
  obtain ⟨a, b, c, d, rfl⟩ := exists_nibbles w
  rw [← BitVec.ofNat_eq_ofNat, nibbles_and_F000, ← BitVec.toNat_inj, toNat_nibbles, toNat_nibbles]
  simp only [BitVec.toNat_ofNat]
  omega

theorem and_F00F_eq_iff :
    w &&& 0xF00F#16 = p ↔
      w.toNat / 4096 = p.toNat / 4096 ∧ w.toNat % 16 = p.toNat % 16 ∧ p.toNat / 16 % 256 = 0 := by
  obtain ⟨a, b, c, d, rfl⟩ := exists_nibbles w
  rw [← BitVec.ofNat_eq_ofNat, nibbles_and_F00F, ← BitVec.toNat_inj, toNat_nibbles, toNat_nibbles]
  simp only [BitVec.toNat_ofNat]
  omega

theorem and_F0FF_eq_iff :
    w &&& 0xF0FF#16 = p ↔
      w.toNat / 4096 = p.toNat / 4096 ∧ w.toNat % 256 = p.toNat % 256 ∧ p.toNat / 256 % 16 = 0 := by
  obtain ⟨a, b, c, d, rfl⟩ := exists_nibbles w
  rw [← BitVec.ofNat_eq_ofNat, nibbles_and_F0FF, ← BitVec.toNat_inj, toNat_nibbles, toNat_nibbles]
  simp only [BitVec.toNat_ofNat]
  omega

theorem and_FFFF_eq_iff : w &&& 0xFFFF#16 = p ↔ w.toNat = p.toNat := by
  rw [← BitVec.ofNat_eq_ofNat, and_FFFF, BitVec.toNat_inj]

/-- The table of R88 is what the catalog of R86 leaves over: one case for each row of the table, and one for the major
nibbles that have no row in it, each of which one template takes whole (R87). -/
theorem isUnknownWord_iff : isUnknownWord w = true ↔ ∀ t ∈ catalog, w &&& t.mask ≠ t.pattern := by
  simp only [catalog, catalogFirst, catalogSecond, Config.nopWord, Config.haltMask, List.cons_append, List.nil_append,
    List.forall_mem_cons, BitVec.ofNat_eq_ofNat, ne_eq, and_F000_eq_iff, and_F00F_eq_iff, and_F0FF_eq_iff,
    and_FFFF_eq_iff]
  simp only [isUnknownWord]
  split
  case h_7 =>
    simp only [imp_false] at *
    simp [*]
    omega
  all_goals
    simp [*, BitVec.toNat_eq]
    omega

end

/-! ## The obligations -/

/-- Settles O3: a word decodes to the sentinel when no template accepts it, and those are the words of R88. -/
theorem unknownWordsAreThoseListed : Obligations.UnknownWordsAreThoseListed := fun _ =>
  decode_eq_unknown_iff.trans isUnknownWord_iff.symm

/-- Settles O4: a row of the catalog accepts the encoding and reads the instruction from it; the word that UNKNOWN
carries is well formed only if no row accepts it. -/
theorem decodeOfEncodeIsTheInstruction : Obligations.DecodeOfEncodeIsTheInstruction := by
  intro i hi
  have hform := Laws.EncodedForm.statement i
  cases i with
  | unknown raw => exact (unknownWordsAreThoseListed raw).mpr hi
  | _ =>
    obtain ⟨t, ht, hw, hbuild⟩ := hform
    exact (decode_of_accepts ht hw).trans hbuild

/-- Settles O5: a word that a template accepts is rebuilt from its fields, and the sentinel carries its word. -/
theorem encodeOfDecodeIsTheWord : Obligations.EncodeOfDecodeIsTheWord := by
  intro w
  obtain ⟨t, ht, hw, hdecode⟩ | ⟨-, hdecode⟩ := decode_cases w
  · rw [hdecode, encode_build_of_accepts t ht hw]
  · rw [hdecode, encode]

/-- Settles O1, by running the decoder on the eleven words. -/
theorem catalogWordsDecode : Obligations.CatalogWordsDecode := by
  unfold Obligations.CatalogWordsDecode
  decide

/-- Settles O2: the fields of four nibbles are nibbles and their concatenations. -/
theorem fieldsAreBitSlices : Obligations.FieldsAreBitSlices := by
  intro w
  obtain ⟨a, b, c, d, rfl⟩ := exists_nibbles w
  rw [fieldsOf_nibbles, toNat_nibbles]
  simp only [toNat_append_eq, BitVec.val_toFin]
  omega

end Sys2Proof
end

section
/-! The Cycle (40_pipeline.md R100, R101): one equation for each kind of state that the request is made in, and, from
them, all that a step can do. -/

namespace Sys2Proof.Machine

open Sys2Proof.Claim

/-- The machine waits for a key (R101): blocked, with no fault recorded and no terminal flag set. -/
structure State.Waiting (s : State) : Prop where
  noFault : s.fault = none
  notQuit : s.quit = false
  notHalted : s.halted = false
  blocked : s.blocking = true

theorem step_of_fault {s : State} (h : s.fault ≠ none) : step s = .refused .deadMachine :=
  if_pos (Option.isSome_iff_ne_none.mpr h)

theorem step_of_terminal {s : State} (h : Terminal s) : step s = .refused .terminalMachine := by
  obtain ⟨hfault, hflag⟩ := h
  simp [step, cycle, hfault, hflag]

theorem step_of_waiting {s : State} (h : s.Waiting) : step s = .next s := by
  simp [step, cycle, h.noFault, h.notQuit, h.notHalted, h.blocked]

theorem step_of_running {s : State} (h : s.Running) :
    step s = orRaise (fetch s) fun w => exec (decode w) (closeLoad s) := by
  simp [step, cycle, h.noFault, h.notQuit, h.notHalted, h.notBlocked]

/-- A request is made of a dead, a terminal, a waiting or a running machine. -/
theorem State.cycle_cases (s : State) : s.fault ≠ none ∨ Terminal s ∨ s.Waiting ∨ s.Running := by
  by_cases hfault : s.fault ≠ none
  · exact .inl hfault
  · have hfault : s.fault = none := not_not.mp hfault
    by_cases hflag : s.quit = true ∨ s.halted = true
    · exact .inr (.inl ⟨hfault, hflag⟩)
    · obtain ⟨hquit, hhalted⟩ : s.quit = false ∧ s.halted = false := by simpa using hflag
      cases hblocking : s.blocking with
      | true => exact .inr (.inr (.inl ⟨hfault, hquit, hhalted, hblocking⟩))
      | false => exact .inr (.inr (.inr ⟨hfault, hquit, hhalted, hblocking⟩))

/-- A step that answers a next state waits, or executes the word fetched. -/
theorem step_eq_next {s t : State} (h : step s = .next t) :
    (s.Waiting ∧ t = s) ∨ (s.Running ∧ ∃ w, fetch s = .ok w ∧ exec (decode w) (closeLoad s) = .next t) := by
  obtain hs | hs | hs | hs := s.cycle_cases
  · cases (step_of_fault hs).symm.trans h
  · cases (step_of_terminal hs).symm.trans h
  · cases (step_of_waiting hs).symm.trans h
    exact .inl ⟨hs, rfl⟩
  · exact .inr ⟨hs, orRaise_eq_next_iff.mp ((step_of_running hs).symm.trans h)⟩

theorem closeLoad_frame (s : State) : Frame s (closeLoad s) fun p => p = .loadWindow := fun p hp => by
  cases p with
  | loadWindow => exact absurd rfl hp
  | _ => exact rfl

/-- Settles O6: the equations of the Cycle, the fetch answering a word up to 4094 and its fault at 4095. -/
theorem stepRunsTheDecodedInstruction : Obligations.StepRunsTheDecodedInstruction := by
  refine fun s => ⟨step_of_fault, step_of_terminal, fun hfault hquit hhalted hblocking => ?_, fun hs hpc => ?_,
    fun hs hpc => ?_, closeLoad_frame s⟩
  · exact step_of_waiting ⟨hfault, hquit, hhalted, hblocking⟩
  · rw [step_of_running hs, fetch_eq_ok hpc]
    rfl
  · rw [step_of_running hs, (fetchFaultsInNoGoodState s).2 hpc, orRaise_error]

end Sys2Proof.Machine
end

section
/-! Where `pc` is after every instruction (40_pipeline.md R103). -/

namespace Sys2Proof.Meaning

open Sys2Proof.Machine Sys2Proof.Claim

/-- HALT and UNKNOWN leave `pc` where the table has it: unchanged. -/
theorem effect_pc_of_stops {i : Instr} (h : stops i = true) (s : State) : (effect i s).pc.toNat = pcAfter i s := by
  cases i with
  | halt | unknown _ => rfl
  | _ => cases h

/-- Settles O17: `pc` is unwritten by the two that stop, and the target of the checked write by all others. -/
theorem everyExecutorLeavesPcAsListed : Obligations.EveryExecutorLeavesPcAsListed := by
  intro i s t h
  obtain ⟨-, ⟨hi, rfl⟩ | ⟨-, -, hle, rfl⟩⟩ := exec_eq_next h
  · exact effect_pc_of_stops hi s
  · exact toNat_ofNat_of_le hle

end Sys2Proof.Meaning
end

section
/-! The invariant (10_state.md R42): the updates that touch what it speaks of, then the effect of every instruction on a
running machine, then the step. -/

namespace Sys2Proof.Machine

namespace State.Inv

variable {s : State} (h : s.Inv)
include h

theorem withPc {k : Nat} (heven : k % 2 = 0) (hle : k ≤ 4094) : (s.withPc (BitVec.ofNat 12 k)).Inv :=
  { h with pcEven := (toNat_ofNat_of_le hle).symm ▸ heven }

theorem withMem {m : Memory} (hm : Memory.wf m) : (s.withMem m).Inv := { h with memCanonical := hm }

theorem withGfx {g : Pixels} (hg : Pixels.wf g s.width.toNat s.height.toNat) : (s.withGfx g).Inv :=
  { h with gfxCanonical := hg }

theorem withDraw (b : Bool) : (s.withDraw b).Inv := { h with }

theorem withBlockTarget (x : Reg) : (s.withBlockTarget x).Inv := { h with }

theorem withV (v : Vector Byte 16) : (s.withV v).Inv := { h with }

theorem closeLoad : (closeLoad s).Inv := { h with }

theorem pushReturn {r : Addr} (hr : r.toNat % 2 = 0) : (pushReturn r s).Inv :=
  { h with
    stackEven := fun k => by
      rw [stackEntry_pushReturn]
      split
      · exact hr
      · exact h.stackEven k }

/-- HALT on a machine that is neither terminal nor blocked. -/
theorem withHalted (hquit : s.quit = false) (hblocking : s.blocking = false) : (s.withHalted true).Inv :=
  { h with
    oneTerminal := fun hboth => Bool.false_ne_true (hquit.symm.trans hboth.1)
    blockedNotTerminal := fun hb => absurd (hblocking.symm.trans hb) Bool.false_ne_true }

/-- UNKNOWN on a machine that is neither terminal nor blocked. -/
theorem withQuit (hhalted : s.halted = false) (hblocking : s.blocking = false) : (s.withQuit true).Inv :=
  { h with
    oneTerminal := fun hboth => Bool.false_ne_true (hhalted.symm.trans hboth.2)
    blockedNotTerminal := fun hb => absurd (hblocking.symm.trans hb) Bool.false_ne_true }

/-- The hold of LD_K on a machine that is not terminal. -/
theorem withBlocking (hquit : s.quit = false) (hhalted : s.halted = false) (b : Bool) : (s.withBlocking b).Inv :=
  { h with blockedNotTerminal := fun _ => ⟨hquit, hhalted⟩ }

/-- A sprite whose box passes the check stays inside the geometry. -/
theorem drawSprite {px py n : Nat} (hbox : boxOutside px py n s = false) {rows : List Byte} (hn : rows.length = n) :
    (s.withGfx (drawSprite px py rows s.gfx).1).Inv :=
  h.withGfx <| wf_drawSprite h.gfxCanonical fun p hp => by
    obtain ⟨hrow, hrow', hcol, hcol', -⟩ := mem_spriteCells.mp hp
    have hin := boxOutside_eq_false_iff.mp hbox
    omega

end State.Inv

theorem State.Running.closeLoad {s : State} (h : s.Running) : (closeLoad s).Running := { h with }

end Sys2Proof.Machine

namespace Sys2Proof.Meaning

open Sys2Proof.Machine Sys2Proof.Claim

/-- DRW draws only a box that passes the check. -/
theorem boxOutside_of_check_drw {x y : Reg} {n : Fin 16} {s : State} (h : check (.drw x y n) s = .ok ()) :
    boxOutside (s.readV x).toNat (s.readV y).toNat n.val s = false := by
  simp only [check] at h
  cases hrange : rangeCheck s.I.toNat n.val with
  | error f =>
    rw [hrange] at h
    cases h
  | ok u =>
    rw [hrange] at h
    exact (boxCheck_eq_ok_iff (e := Config.drawEdge)).mp h

/-- The effect of an instruction that a running machine executes keeps the invariant. -/
theorem effect_inv {i : Instr} {s : State} (hs : s.Inv) (hrun : s.Running) (hcheck : check i s = .ok ()) :
    (effect i s).Inv := by
  cases i with
  | cls => exact (hs.withGfx (Pixels.wf_clear _ _)).withDraw true
  | halt => exact hs.withHalted hrun.notQuit hrun.notBlocked
  | unknown _ => exact hs.withQuit hrun.notHalted hrun.notBlocked
  | call nnn =>
    have heven := hs.pcEven
    exact hs.pushReturn (by rw [BitVec.toNat_ofNat]; omega)
  | ldB _ | stRegs _ => exact hs.withMem (Memory.wf_writeBytes hs.memCanonical _ _)
  | drw x y n =>
    exact ((hs.drawSprite (boxOutside_of_check_drw hcheck) (Memory.length_readBytes _ _ _)).withDraw true).withV _
  | ldK x => exact (hs.withBlockTarget x).withBlocking hrun.notQuit hrun.notHalted true
  | _ => exact { hs with }

theorem exec_inv {i : Instr} {s t : State} (hs : s.Inv) (hrun : s.Running) (h : exec i s = .next t) : t.Inv := by
  obtain ⟨hcheck, ⟨-, rfl⟩ | ⟨-, heven, hle, rfl⟩⟩ := exec_eq_next h
  · exact effect_inv hs hrun hcheck
  · exact (effect_inv hs hrun hcheck).withPc heven hle

/-- Settles O13: a waiting machine stays as it is; a running one closes the load window and executes. -/
theorem everyStepKeepsTheInvariant : Obligations.EveryStepKeepsTheInvariant := by
  intro s t hs h
  obtain ⟨-, rfl⟩ | ⟨hrun, w, -, hexec⟩ := step_eq_next h
  · exact hs
  · exact exec_inv hs.closeLoad hrun.closeLoad hexec

end Sys2Proof.Meaning
end

section
/-! A waiting machine (40_pipeline.md R101, 60_exceptions.md R244): the frame of the events that do not resolve the key
names none of the flags that make it wait, so it waits after any number of them. -/

namespace Sys2Proof.Claim

open Sys2Proof.Machine

/-- What Cycle, SetKeys, TimerTick and ClearDraw may change on a waiting machine. -/
def waitMayChange (p : Place) : Prop := p = .delayTimer ∨ p = .soundTimer ∨ p = .draw ∨ ∃ k, p = .key k

namespace Frame

section

variable {s t : State} {c : Place → Prop} (hf : Frame s t c)
include hf

theorem withKeys (h : ∀ k, c (.key k)) (v : Vector Bool 16) : Frame s (t.withKeys v) c := fun p hp => by
  cases p with
  | key k => exact absurd (h k) hp
  | _ => exact hf _ hp

/-- An event has its effect or, on a dead machine, none. -/
theorem whenLive {u : State} (hu : Frame s u c) : Frame s (whenLive t u) c := by
  unfold Machine.whenLive
  split
  · exact hf
  · exact hu

end

theorem waiting {s t : State} (hf : Frame s t waitMayChange) (hs : s.Waiting) : t.Waiting where
  noFault := (hf .faultRecord (by simp [waitMayChange])).trans hs.noFault
  notQuit := (hf .quit (by simp [waitMayChange])).trans hs.notQuit
  notHalted := (hf .halted (by simp [waitMayChange])).trans hs.notHalted
  blocked := (hf .blocking (by simp [waitMayChange])).trans hs.blocked

end Frame

end Sys2Proof.Claim

namespace Sys2Proof.Machine

open Sys2Proof.Claim

theorem after_cycle_of_waiting {s : State} (h : s.Waiting) : Event.after .cycle s = s :=
  congrArg (settle s) (step_of_waiting h)

theorem cycleResult_of_waiting {s : State} (h : s.Waiting) : cycleResult s = .blocked := by
  have hcycle : cycle s = .next s := step_of_waiting h
  simp [cycleResult, hcycle, h.blocked]

/-- One more of the four events leaves the frame as it is. -/
theorem after_waiting_frame {s t : State} (hs : s.Waiting) (hf : Frame s t waitMayChange) {e : Event}
    (he : e = .cycle ∨ (∃ ks, e = .setKeys ks) ∨ e = .timerTick ∨ e = .clearDraw) :
    Frame s (e.after t) waitMayChange := by
  obtain rfl | ⟨ks, rfl⟩ | rfl | rfl := he
  · rw [after_cycle_of_waiting (hf.waiting hs)]
    exact hf
  · exact hf.whenLive (hf.withKeys (fun k => .inr (.inr (.inr ⟨k, rfl⟩))) ks)
  · exact hf.whenLive ((hf.withDT (.inl rfl) _).withST (.inr (.inl rfl)) _)
  · exact hf.whenLive (hf.withDraw (.inr (.inr (.inl rfl))) false)

/-- Settles O51: by induction on the events, each of which leaves the machine waiting. -/
theorem blockedMachineWaits : Obligations.BlockedMachineWaits := by
  intro s hfault hquit hhalted hblocking
  have hs : s.Waiting := ⟨hfault, hquit, hhalted, hblocking⟩
  refine ⟨after_cycle_of_waiting hs, cycleResult_of_waiting hs, fun es hes => ?_⟩
  exact List.foldlRecOn (motive := (Frame s · waitMayChange)) es _ (Frame.refl s _) fun _ hf e he =>
    after_waiting_frame hs hf (hes e he)

end Sys2Proof.Machine
end

section
/-! From the one form of every instruction to the claims about one of them: its encoding by the row of the catalog,
where it completes (`Completes`, `PlainEffect`), and the faults of its checks and of its write of `pc`. -/

namespace Sys2Proof.Claim

open Sys2Proof.Machine

/-- A row of the catalog (30_encoding.md R86) encodes what it builds. -/
theorem EncodedAs.of_mem_catalog {t : Template} (ht : t ∈ catalog) {i : Word → Instr}
    (hbuild : ∀ w, t.build (fieldsOf w) = i w) : EncodedAs t.pattern t.mask i :=
  fun w hw => (decode_of_accepts ht hw).trans (hbuild w)

theorem fieldsOf_nnn (w : Word) : (fieldsOf w).nnn = nnnOf w := by
  apply BitVec.eq_of_toNat_eq
  simp [fieldsOf, nnnOf]

/-- A frame may name more. -/
theorem Frame.mono {s t : State} {c c' : Place → Prop} (hf : Frame s t c) (h : ∀ p, c p → c' p) : Frame s t c' :=
  fun p hp => hf p (mt (h p) hp)

/-- A completion may say less of its effect. -/
theorem Completes.mono_effect {i : Instr} {s : State} {target : Nat} {e e' : State → Prop} {c : Place → Prop}
    (hc : Completes i s target e c) (h : ∀ t, e t → e' t) : Completes i s target e' c := by
  obtain ⟨t, hexec, hpc, heffect, hframe⟩ := hc
  exact ⟨t, hexec, hpc, h t heffect, hframe⟩

end Sys2Proof.Claim

namespace Sys2Proof.Meaning

open Sys2Proof.Machine Sys2Proof.Claim

theorem exec_eq_fault_of_check_error {i : Instr} {s : State} {f : Fault} (hcheck : check i s = .error f) :
    exec i s = .fault f := by
  rw [exec_eq, hcheck, orRaise_error]

/-- An instruction that passes its checks and has an illegal target for `pc` raises the fault of that target. -/
theorem exec_eq_fault_of_pcAfter {i : Instr} {s : State} (hi : stops i = false) (hcheck : check i s = .ok ())
    (hbad : pcAfter i s % 2 = 1 ∨ 4094 < pcAfter i s) : exec i s = .fault (.pcRange (pcAfter i s)) := by
  rw [exec_eq, hcheck, orRaise_ok, finish_of_not_stops hi]
  exact setPc_eq_fault_iff.mpr ⟨hbad, rfl⟩

/-- An instruction that passes its checks and has a legal target for `pc` completes there. -/
theorem completes_of_check {i : Instr} {s : State} {e : State → Prop} {c : Place → Prop} (hi : stops i = false)
    (hcheck : check i s = .ok ()) (heven : pcAfter i s % 2 = 0) (hle : pcAfter i s ≤ 4094)
    (heffect : ∀ v, e ((effect i s).withPc v)) (hchange : ∀ p, mayChange i s p → p = .pc ∨ c p) :
    Completes i s (pcAfter i s) e c := by
  have hframe := ((effect_frame hcheck).withPc (mayChange_pc hi s) (BitVec.ofNat 12 (pcAfter i s))).mono hchange
  exact ⟨_, exec_eq_next_of_check hi hcheck heven hle, toNat_ofNat_of_le hle, heffect _, hframe⟩

/-- An instruction without checks that advances by 2. -/
theorem plainEffect_of_check {i : Instr} {e : State → State → Prop} {c : State → Place → Prop} (hi : stops i = false)
    (hcheck : ∀ s, check i s = .ok ()) (hafter : ∀ s, pcAfter i s = s.pc.toNat + 2)
    (heffect : ∀ s v, e s ((effect i s).withPc v)) (hchange : ∀ s p, mayChange i s p → p = .pc ∨ c s p) :
    PlainEffect i e c := by
  refine fun s heven => ⟨fun hle => ?_, fun hpc => ?_⟩
  · have hafter := hafter s
    rw [← hafter]
    exact completes_of_check hi (hcheck s) (by omega) (by omega) (heffect s) (hchange s)
  · have hafter : pcAfter i s = 4096 := by rw [hafter, hpc]
    rw [← hafter]
    exact exec_eq_fault_of_pcAfter hi (hcheck s) (.inr (by omega))

end Sys2Proof.Meaning
end

section
/-! Control flow: CLS, RET, JP, CALL, JP_V0 (41_control_flow.md R120 to R124). -/

namespace Sys2Proof.Meaning

open Sys2Proof.Machine Sys2Proof.Claim

theorem encodedAs_cls : EncodedAs 0x00E0 0xFFFF (fun _ => .cls) :=
  .of_mem_catalog (t := ⟨"CLS", 0x00E0, 0xFFFF, .none, fun _ => .cls⟩) (by simp [catalog, catalogFirst]) fun _ => rfl

theorem encodedAs_jp : EncodedAs 0x1000 0xF000 (fun w => .jp (nnnOf w)) :=
  .of_mem_catalog (t := ⟨"JP", 0x1000, 0xF000, .a, fun f => .jp f.nnn⟩) (by simp [catalog, catalogFirst])
    fun w => congrArg Instr.jp (fieldsOf_nnn w)

theorem encodedAs_call : EncodedAs 0x2000 0xF000 (fun w => .call (nnnOf w)) :=
  .of_mem_catalog (t := ⟨"CALL", 0x2000, 0xF000, .a, fun f => .call f.nnn⟩) (by simp [catalog, catalogFirst])
    fun w => congrArg Instr.call (fieldsOf_nnn w)

theorem encodedAs_jpV0 : EncodedAs 0xB000 0xF000 (fun w => .jpV0 (nnnOf w)) :=
  .of_mem_catalog (t := ⟨"JP_V0", 0xB000, 0xF000, .a, fun f => .jpV0 f.nnn⟩) (by simp [catalog, catalogSecond])
    fun w => congrArg Instr.jpV0 (fieldsOf_nnn w)

/-- An even address is at most 4094, the last place of an instruction. -/
theorem toNat_le_of_even {a : Addr} (h : a.toNat % 2 = 0) : a.toNat ≤ 4094 := by
  have hlt := a.isLt
  omega

/-- CALL passes its checks when the stack has room and `pc + 2` is a place of an instruction (R123). -/
theorem check_call_eq_ok_iff {nnn : Addr} {s : State} :
    check (.call nnn) s = .ok () ↔ s.sp.val ≠ 16 ∧ s.pc.toNat + 2 ≤ 4094 := by
  have hdepth : Config.stackDepth = 16 := rfl
  simp only [check]
  split_ifs
  · simp only [false_iff]; omega
  · simp only [false_iff]; omega
  · simp only [true_iff]; omega

/-- CALL with a full stack faults whatever else is wrong. -/
theorem check_call_of_full {nnn : Addr} {s : State} (hsp : s.sp.val = 16) :
    check (.call nnn) s = .error .stackOverflow := if_pos hsp

/-- CALL with room on the stack at the last place of an instruction has no return address to push. -/
theorem check_call_of_last_pc {nnn : Addr} {s : State} (hsp : s.sp.val ≠ 16) (hpc : s.pc.toNat = 4094) :
    check (.call nnn) s = .error (.pcRange 4096) := by
  simp [check, Config.stackDepth, hsp, hpc]

/-- CALL pushes the address of the next instruction in the slot of the number `sp`. -/
theorem toNat_stackEntry_pushReturn {s : State} (hpc : s.pc.toNat + 2 ≤ 4094) :
    ((pushReturn (BitVec.ofNat 12 (s.pc.toNat + 2)) s).stackEntry s.pushSlot).toNat = s.pc.toNat + 2 := by
  rw [stackEntry_pushReturn, if_pos rfl, toNat_ofNat_of_le hpc]

/-- RET with `k + 1` entries on the stack goes to entry `k` and leaves `k` of them (R121). -/
theorem completes_ret {s : State} {k : Fin 16} (hsp : s.sp.val = k.val + 1) (heven : (s.stackEntry k).toNat % 2 = 0) :
    Completes .ret s (s.stackEntry k).toNat (fun t => t.sp.val = k.val) (fun p => p = .stackPointer) := by
  have hcheck : check .ret s = .ok () := if_neg (by omega)
  have hslot : s.popSlot = k := Fin.ext (by rw [popSlot_val, hsp, Nat.add_sub_cancel])
  have hafter : pcAfter .ret s = (s.stackEntry k).toNat := hslot ▸ rfl
  have hpop : (popReturn s).sp.val = k.val := by rw [sp_popReturn, hsp, Nat.add_sub_cancel]
  rw [← hafter] at heven ⊢
  exact completes_of_check rfl hcheck heven (hafter ▸ toNat_le_of_even (hafter ▸ heven)) (fun _ => hpop) fun _ => id

/-- Settles O24: the two checks of CALL in their order, then its write of `pc`. -/
theorem callPushesTheReturnAddress : Obligations.CallPushesTheReturnAddress := by
  refine ⟨encodedAs_call, fun nnn s _ => ⟨fun hfull => exec_eq_fault_of_check_error (check_call_of_full hfull),
    fun k hk => ?_⟩⟩
  have hroom : s.sp.val ≠ 16 := hk ▸ k.isLt.ne
  have hslot : s.pushSlot = k := Fin.ext ((pushSlot_val hroom).trans hk)
  refine ⟨fun hpc => exec_eq_fault_of_check_error (check_call_of_last_pc hroom hpc), fun hpc hodd => ?_,
    fun hpc heven => ?_⟩
  · have hnext : s.pc.toNat + 2 ≤ 4094 := Nat.add_le_add_right hpc 2
    exact exec_eq_fault_of_pcAfter (i := .call nnn) rfl (check_call_eq_ok_iff.mpr ⟨hroom, hnext⟩) (.inl hodd)
  · have hnext : s.pc.toNat + 2 ≤ 4094 := Nat.add_le_add_right hpc 2
    refine completes_of_check (i := .call nnn) rfl (check_call_eq_ok_iff.mpr ⟨hroom, hnext⟩) heven
      (toNat_le_of_even heven) (fun _ => ⟨?_, sp_pushReturn (BitVec.ofNat 12 (s.pc.toNat + 2)) hroom⟩) ?_
    · exact hslot ▸ toNat_stackEntry_pushReturn hnext
    · rintro p (rfl | rfl | ⟨j, hj, rfl⟩)
      · exact .inl rfl
      · exact .inr (.inl rfl)
      · exact .inr (.inr (congrArg Place.stackSlot (Fin.ext (hj.trans hk))))

/-- Settles O25: the slot that RET reads is the one that CALL filled. -/
theorem returnUndoesCall : Obligations.ReturnUndoesCall := by
  intro nnn s t u heven hcall hstack hsp
  obtain ⟨hcheck, ⟨⟨⟩, -⟩ | ⟨-, -, -, rfl⟩⟩ := exec_eq_next hcall
  obtain ⟨hroom, hnext⟩ := check_call_eq_ok_iff.mp hcheck
  have hsp : u.sp.val = s.pushSlot.val + 1 := by
    rw [hsp, pushSlot_val hroom]
    exact sp_pushReturn (BitVec.ofNat 12 (s.pc.toNat + 2)) hroom
  have hentry : (u.stackEntry s.pushSlot).toNat = s.pc.toNat + 2 := by
    rw [State.stackEntry, hstack]
    exact toNat_stackEntry_pushReturn hnext
  have hret := completes_ret hsp (by omega)
  rw [hentry] at hret
  exact hret.mono_effect fun v hv => Fin.ext (hv.trans (pushSlot_val hroom))

/-- Settles O21: the cleared buffer has no cell set, and CLS advances by 2. -/
theorem clsClearsTheBuffer : Obligations.ClsClearsTheBuffer :=
  ⟨encodedAs_cls, plainEffect_of_check rfl (fun _ => rfl) (fun _ => rfl) (fun _ _ => ⟨Pixels.get_clear, rfl⟩)
    fun _ _ => id⟩

/-- Settles O23: JP is its write of `pc`. -/
theorem jumpGoesToItsAddress : Obligations.JumpGoesToItsAddress := by
  refine ⟨encodedAs_jp, fun nnn s => ⟨fun heven => ?_, fun hodd => ?_⟩⟩
  · exact completes_of_check (i := .jp nnn) rfl rfl heven (toNat_le_of_even heven) (fun _ => trivial) fun _ => .inl
  · exact exec_eq_fault_of_pcAfter (i := .jp nnn) rfl rfl (.inl hodd)

/-- Settles O26: JP_V0 is a write of the unreduced sum to `pc`. -/
theorem jumpWithOffsetAddsRegisterZero : Obligations.JumpWithOffsetAddsRegisterZero := by
  refine ⟨encodedAs_jpV0, ?_⟩
  rintro nnn s _ rfl
  refine ⟨fun heven hle => ?_, fun hbad => ?_⟩
  · exact completes_of_check (i := .jpV0 nnn) rfl rfl heven hle (fun _ => trivial) fun _ => .inl
  · exact exec_eq_fault_of_pcAfter (i := .jpV0 nnn) rfl rfl hbad

end Sys2Proof.Meaning
end

section
/-! Conditional skips: SE_IMM, SNE_IMM, SE_REG, SNE_REG (42_conditional_skip.md R130 to R133). A skip is `SkipsWhen` as
soon as its target in the table of R103 is 4 further when the condition holds and 2 further when not. -/

namespace Sys2Proof.Claim

open Sys2Proof.Machine

theorem fieldsOf_x (w : Word) : (fieldsOf w).x = xOf w := by
  obtain ⟨hx, -⟩ := fieldsAreBitSlices w
  exact Fin.ext hx

theorem fieldsOf_y (w : Word) : (fieldsOf w).y = yOf w := by
  obtain ⟨-, hy, -⟩ := fieldsAreBitSlices w
  exact Fin.ext hy

theorem fieldsOf_kk (w : Word) : (fieldsOf w).kk = kkOf w := by
  obtain ⟨-, -, hkk, -⟩ := fieldsAreBitSlices w
  exact BitVec.eq_of_toNat_eq (hkk.trans (BitVec.toNat_ofNat w.toNat 8).symm)

end Sys2Proof.Claim

namespace Sys2Proof.Meaning

open Sys2Proof.Machine Sys2Proof.Claim

/-! ## Encodings -/

theorem encodedAs_seImm : EncodedAs 0x3000 0xF000 (fun w => .seImm (xOf w) (kkOf w)) :=
  .of_mem_catalog (t := ⟨"SE_IMM", 0x3000, 0xF000, .xkk, fun f => .seImm f.x f.kk⟩) (by simp [catalog, catalogFirst])
    fun w => congrArg₂ Instr.seImm (fieldsOf_x w) (fieldsOf_kk w)

theorem encodedAs_sneImm : EncodedAs 0x4000 0xF000 (fun w => .sneImm (xOf w) (kkOf w)) :=
  .of_mem_catalog (t := ⟨"SNE_IMM", 0x4000, 0xF000, .xkk, fun f => .sneImm f.x f.kk⟩)
    (by simp [catalog, catalogFirst]) fun w => congrArg₂ Instr.sneImm (fieldsOf_x w) (fieldsOf_kk w)

theorem encodedAs_seReg : EncodedAs 0x5000 0xF00F (fun w => .seReg (xOf w) (yOf w)) :=
  .of_mem_catalog (t := ⟨"SE_REG", 0x5000, 0xF00F, .xy, fun f => .seReg f.x f.y⟩) (by simp [catalog, catalogFirst])
    fun w => congrArg₂ Instr.seReg (fieldsOf_x w) (fieldsOf_y w)

theorem encodedAs_sneReg : EncodedAs 0x9000 0xF00F (fun w => .sneReg (xOf w) (yOf w)) :=
  .of_mem_catalog (t := ⟨"SNE_REG", 0x9000, 0xF00F, .xy, fun f => .sneReg f.x f.y⟩)
    (by simp [catalog, catalogSecond]) fun w => congrArg₂ Instr.sneReg (fieldsOf_x w) (fieldsOf_y w)

/-- The words with the major nibble of a register skip and a low nibble other than 0 are in the table of R88. -/
theorem decode_neighbour_of_register_skip {w : Word} (hmajor : w &&& 0xF000 = 0x5000 ∨ w &&& 0xF000 = 0x9000)
    (hlow : w &&& 0x000F ≠ 0) : decode w = .unknown w := by
  have hmod : (w &&& 0x000F).toNat = w.toNat % 16 := Nat.and_two_pow_sub_one_eq_mod w.toNat 4
  have hn0 : w.toNat % 16 ≠ 0 := fun h => hlow (BitVec.eq_of_toNat_eq (hmod.trans h))
  refine (unknownWordsAreThoseListed w).mpr ?_
  obtain h5 | h9 := hmajor
  · obtain ⟨hrow, -⟩ := and_F000_eq_iff.mp h5
    simpa [isUnknownWord, hrow] using hn0
  · obtain ⟨hrow, -⟩ := and_F000_eq_iff.mp h9
    simpa [isUnknownWord, hrow] using hn0

/-! ## Skips -/

/-- An instruction that passes its checks, names nothing but `pc`, and goes 4 or 2 further by a condition. -/
theorem skipsWhen_of_check {i : Instr} {s : State} {cond : Prop} [Decidable cond] (hpc : s.pc.toNat % 2 = 0)
    (hi : stops i = false) (hcheck : check i s = .ok ()) (hchange : ∀ p, mayChange i s p → p = .pc)
    (hafter : pcAfter i s = s.pc.toNat + if cond then 4 else 2) : SkipsWhen i s cond := by
  have hcompletes (heven : pcAfter i s % 2 = 0) (hle : pcAfter i s ≤ 4094) :
      Completes i s (pcAfter i s) (fun _ => True) (fun _ => False) :=
    completes_of_check hi hcheck heven hle (fun _ => trivial) fun p hp => .inl (hchange p hp)
  have hfault (habove : 4094 < pcAfter i s) : exec i s = .fault (.pcRange (pcAfter i s)) :=
    exec_eq_fault_of_pcAfter hi hcheck (.inr habove)
  rw [hafter] at hcompletes hfault
  refine ⟨fun hc hle => ?_, fun hc hle => ?_, fun hc hge => ?_, fun hc hlast => ?_⟩
  · rw [if_pos hc] at hcompletes
    exact hcompletes (by omega) (by omega)
  · rw [if_neg hc] at hcompletes
    exact hcompletes (by omega) (by omega)
  · rw [if_pos hc] at hfault
    exact hfault (by omega)
  · rw [if_neg hc, hlast] at hfault
    exact hfault (by omega)

/-- The target of a skip on inequality, as the table of R103 has it, by the condition of the skip. -/
theorem skip_target_of_ne (a b : Byte) (k : Nat) : (k + if a = b then 2 else 4) = k + if a ≠ b then 4 else 2 :=
  congrArg (k + ·) (ite_not (a = b) 4 2).symm

/-- Settles O27: both compare a register with `kk` and check nothing. -/
theorem immediateSkips : Obligations.ImmediateSkips :=
  ⟨encodedAs_seImm, encodedAs_sneImm, fun _ _ _ hpc =>
    ⟨skipsWhen_of_check hpc rfl rfl (fun _ => id) rfl,
      skipsWhen_of_check hpc rfl rfl (fun _ => id) (skip_target_of_ne _ _ _)⟩⟩

/-- Settles O28: both compare two registers and check nothing; the words next to theirs are in the table of R88. -/
theorem registerSkips : Obligations.RegisterSkips :=
  ⟨encodedAs_seReg, encodedAs_sneReg, fun _ => decode_neighbour_of_register_skip, fun _ _ _ hpc =>
    ⟨skipsWhen_of_check hpc rfl rfl (fun _ => id) rfl,
      skipsWhen_of_check hpc rfl rfl (fun _ => id) (skip_target_of_ne _ _ _)⟩⟩

end Sys2Proof.Meaning
end

section
/-! Data movement and bitwise logic: LD_IMM, ADD_IMM, LD_REG, OR, AND, XOR (43_data_movement.md R140 to R145). Each is
one write of one register and an advance by 2, so its claim is what the byte written is. -/

namespace Sys2Proof.Meaning

open Sys2Proof.Machine Sys2Proof.Claim

/-! ## Encodings -/

theorem encodedAs_ldImm : EncodedAs 0x6000 0xF000 (fun w => .ldImm (xOf w) (kkOf w)) :=
  .of_mem_catalog (t := ⟨"LD_IMM", 0x6000, 0xF000, .xkk, fun f => .ldImm f.x f.kk⟩) (by simp [catalog, catalogFirst])
    fun w => congrArg₂ Instr.ldImm (fieldsOf_x w) (fieldsOf_kk w)

theorem encodedAs_addImm : EncodedAs 0x7000 0xF000 (fun w => .addImm (xOf w) (kkOf w)) :=
  .of_mem_catalog (t := ⟨"ADD_IMM", 0x7000, 0xF000, .xkk, fun f => .addImm f.x f.kk⟩)
    (by simp [catalog, catalogFirst]) fun w => congrArg₂ Instr.addImm (fieldsOf_x w) (fieldsOf_kk w)

theorem encodedAs_ldReg : EncodedAs 0x8000 0xF00F (fun w => .ldReg (xOf w) (yOf w)) :=
  .of_mem_catalog (t := ⟨"LD_REG", 0x8000, 0xF00F, .xy, fun f => .ldReg f.x f.y⟩) (by simp [catalog, catalogFirst])
    fun w => congrArg₂ Instr.ldReg (fieldsOf_x w) (fieldsOf_y w)

theorem encodedAs_orReg : EncodedAs 0x8001 0xF00F (fun w => .orReg (xOf w) (yOf w)) :=
  .of_mem_catalog (t := ⟨"OR", 0x8001, 0xF00F, .xy, fun f => .orReg f.x f.y⟩) (by simp [catalog, catalogFirst])
    fun w => congrArg₂ Instr.orReg (fieldsOf_x w) (fieldsOf_y w)

theorem encodedAs_andReg : EncodedAs 0x8002 0xF00F (fun w => .andReg (xOf w) (yOf w)) :=
  .of_mem_catalog (t := ⟨"AND", 0x8002, 0xF00F, .xy, fun f => .andReg f.x f.y⟩) (by simp [catalog, catalogFirst])
    fun w => congrArg₂ Instr.andReg (fieldsOf_x w) (fieldsOf_y w)

theorem encodedAs_xorReg : EncodedAs 0x8003 0xF00F (fun w => .xorReg (xOf w) (yOf w)) :=
  .of_mem_catalog (t := ⟨"XOR", 0x8003, 0xF00F, .xy, fun f => .xorReg f.x f.y⟩) (by simp [catalog, catalogFirst])
    fun w => congrArg₂ Instr.xorReg (fieldsOf_x w) (fieldsOf_y w)

/-! ## One register written -/

/-- An instruction without checks that writes `value` to `V[x]` and advances by 2: its effect is whatever follows from
what `V[x]` then holds, and nothing else changes. -/
theorem plainEffect_of_writeV {i : Instr} {x : Reg} {value : State → Byte} {e : State → State → Prop}
    (hi : stops i = false) (hcheck : ∀ s, check i s = .ok ()) (hafter : ∀ s, pcAfter i s = s.pc.toNat + 2)
    (heffect : ∀ s, effect i s = s.writeV x (value s))
    (hchange : ∀ s p, mayChange i s p → p = .pc ∨ ∃ r, r = x ∧ p = .reg r)
    (hvalue : ∀ s t : State, t.readV x = value s → e s t) : PlainEffect i e (fun _ p => p = .reg x) := by
  refine plainEffect_of_check hi hcheck hafter (fun s v => hvalue s _ ?_) fun s p hp => ?_
  · rw [State.withPc_readV, heffect, readV_writeV_same]
  · obtain rfl | ⟨r, rfl, rfl⟩ := hchange s p hp
    · exact .inl rfl
    · exact .inr rfl

/-- Settles O29: each writes the byte its rule names, ADD_IMM the sum of two bytes, which is taken modulo 256. -/
theorem loadAddImmediateAndCopy : Obligations.LoadAddImmediateAndCopy := by
  refine ⟨encodedAs_ldImm, encodedAs_addImm, encodedAs_ldReg, fun x kk => ?_, fun x kk => ?_, fun x y => ?_⟩
  · exact plainEffect_of_writeV rfl (fun _ => rfl) (fun _ => rfl) (fun _ => rfl) (fun _ _ => id)
      fun _ _ hread => hread
  · exact plainEffect_of_writeV rfl (fun _ => rfl) (fun _ => rfl) (fun _ => rfl) (fun _ _ => id)
      fun _ _ hread => by rw [hread, BitVec.toNat_add]
  · exact plainEffect_of_writeV rfl (fun _ => rfl) (fun _ => rfl) (fun _ => rfl) (fun _ _ => id)
      fun _ _ hread => hread

/-- Settles O30: each writes the bitwise operation of two bytes to `V[x]` alone. -/
theorem bitwiseLogic : Obligations.BitwiseLogic := by
  refine ⟨encodedAs_orReg, encodedAs_andReg, encodedAs_xorReg, fun x y => ⟨?_, ?_, ?_⟩⟩
  · exact plainEffect_of_writeV rfl (fun _ => rfl) (fun _ => rfl) (fun _ => rfl) (fun _ _ => id)
      fun _ _ hread _ => by rw [hread, BitVec.getLsbD_or]
  · exact plainEffect_of_writeV rfl (fun _ => rfl) (fun _ => rfl) (fun _ => rfl) (fun _ _ => id)
      fun _ _ hread _ => by rw [hread, BitVec.getLsbD_and]
  · exact plainEffect_of_writeV rfl (fun _ => rfl) (fun _ => rfl) (fun _ => rfl) (fun _ _ => id)
      fun _ _ hread _ => by rw [hread, BitVec.getLsbD_xor]

end Sys2Proof.Meaning
end

section
/-! Arithmetic with flags: ADD_REG, SUB, SUBN, SHR, SHL (44_arithmetic_flags.md R150 to R156). Each writes a result to
`V[x]` and then a flag to VF (R155) and advances by 2, so its claim is what the byte and the flag are as numbers. -/

namespace Sys2Proof.Machine

/-! ## The flags and the results as numbers -/

theorem flagByte_decide (p : Prop) [Decidable p] : flagByte (decide p) = if p then 1 else 0 := by
  simp only [flagByte, decide_eq_true_eq]

theorem toNat_flagByte (b : Bool) : (flagByte b).toNat = b.toNat := by
  cases b <;> rfl

theorem flagByte_carryOut (a b : Byte) : flagByte (carryOut a b) = if 255 < a.toNat + b.toNat then 1 else 0 :=
  flagByte_decide _

theorem flagByte_notBorrow (a b : Byte) : flagByte (notBorrow a b) = if b.toNat ≤ a.toNat then 1 else 0 :=
  flagByte_decide _

theorem toNat_flagByte_lostLow (a : Byte) : (flagByte (lostLow a)).toNat = a.toNat % 2 := by
  rw [toNat_flagByte, lostLow, ← BitVec.testBit_toNat, Nat.toNat_testBit, Nat.pow_zero, Nat.div_one]

/-- The quotient needs no remainder: a byte is below 256. -/
theorem toNat_flagByte_lostHigh (a : Byte) : (flagByte (lostHigh a)).toNat = a.toNat / 128 := by
  have hbit : (flagByte (lostHigh a)).toNat = a.toNat / 128 % 2 := by
    rw [toNat_flagByte, lostHigh, ← BitVec.testBit_toNat, Nat.toNat_testBit]
  have hlt : a.toNat < 256 := a.isLt
  omega

/-- R156: the stored difference is the integers' difference modulo 256, also when that is negative. -/
theorem toNat_byte_sub (a b : Byte) : ((a - b).toNat : Int) = (a.toNat - b.toNat : Int) % 256 := by
  have hlt : b.toNat < 256 := b.isLt
  rw [BitVec.toNat_sub]
  omega

end Sys2Proof.Machine

namespace Sys2Proof.Meaning

open Sys2Proof.Machine Sys2Proof.Claim

/-! ## Encodings -/

/-- A row of the catalog of shape XY encodes what it builds from its two registers. -/
theorem encodedAs_of_xy_mem_catalog {name : String} {p : Word} {build : Reg → Reg → Instr}
    (h : ⟨name, p, 0xF00F, .xy, fun f => build f.x f.y⟩ ∈ catalog) :
    EncodedAs p 0xF00F (fun w => build (xOf w) (yOf w)) :=
  .of_mem_catalog h fun w => congrArg₂ build (fieldsOf_x w) (fieldsOf_y w)

theorem encodedAs_addReg : EncodedAs 0x8004 0xF00F (fun w => .addReg (xOf w) (yOf w)) :=
  encodedAs_of_xy_mem_catalog (name := "ADD_REG") (by simp [catalog, catalogFirst])

theorem encodedAs_sub : EncodedAs 0x8005 0xF00F (fun w => .sub (xOf w) (yOf w)) :=
  encodedAs_of_xy_mem_catalog (name := "SUB") (by simp [catalog, catalogFirst])

theorem encodedAs_subn : EncodedAs 0x8007 0xF00F (fun w => .subn (xOf w) (yOf w)) :=
  encodedAs_of_xy_mem_catalog (name := "SUBN") (by simp [catalog, catalogSecond])

theorem encodedAs_shr : EncodedAs 0x8006 0xF00F (fun w => .shr (xOf w) (yOf w)) :=
  encodedAs_of_xy_mem_catalog (name := "SHR") (by simp [catalog, catalogFirst])

theorem encodedAs_shl : EncodedAs 0x800E 0xF00F (fun w => .shl (xOf w) (yOf w)) :=
  encodedAs_of_xy_mem_catalog (name := "SHL") (by simp [catalog, catalogSecond])

/-! ## A result and a flag written -/

/-- An instruction without checks that writes `result` to `V[x]`, then `flag` to VF, and advances by 2: its effect is
whatever follows from what the two registers then hold, `V[x]` being told only where the flag does not overwrite it
(R155), and nothing else changes. -/
theorem plainEffect_of_writeResultAndFlag {i : Instr} {x : Reg} {result : State → Byte} {flag : State → Bool}
    {e : State → State → Prop} (hi : stops i = false) (hcheck : ∀ s, check i s = .ok ())
    (hafter : ∀ s, pcAfter i s = s.pc.toNat + 2)
    (heffect : ∀ s, effect i s = writeResultAndFlag x (result s) (flag s) s)
    (hchange : ∀ s p, mayChange i s p → p = .pc ∨ ∃ r, (r = x ∨ r = 15) ∧ p = .reg r)
    (hvalues : ∀ s t : State, (x ≠ 15 → t.readV x = result s) → t.readV 15 = flagByte (flag s) → e s t) :
    PlainEffect i e (fun _ p => p = .reg x ∨ p = .reg 15) := by
  refine plainEffect_of_check hi hcheck hafter (fun s v => hvalues s _ (fun hx => ?_) ?_) fun s p hp => ?_
  · rw [State.withPc_readV, heffect, readV_writeResultAndFlag]
    exact (if_neg hx).trans (if_pos rfl)
  · rw [State.withPc_readV, heffect]
    exact readV_writeResultAndFlag_flag s x (result s) (flag s)
  · obtain rfl | ⟨r, rfl | rfl, rfl⟩ := hchange s p hp
    · exact .inl rfl
    · exact .inr (.inl rfl)
    · exact .inr (.inr rfl)

/-- Settles O31: the result is a sum of bytes, the flag its carry. -/
theorem addRegistersSetsCarry : Obligations.AddRegistersSetsCarry := by
  refine ⟨encodedAs_addReg, fun x y => ?_⟩
  exact plainEffect_of_writeResultAndFlag rfl (fun _ => rfl) (fun _ => rfl) (fun _ => rfl) (fun _ _ => id)
    fun _ _ hresult hflag =>
      ⟨fun hx => by rw [hresult hx, BitVec.toNat_add], by rw [hflag, flagByte_carryOut]⟩

/-- Settles O32: the result is a difference of bytes, the flag its not-borrow, SUBN with the operands swapped. -/
theorem subtractionsSetNotBorrow : Obligations.SubtractionsSetNotBorrow := by
  refine ⟨encodedAs_sub, encodedAs_subn, fun x y => ⟨?_, ?_⟩⟩
  · exact plainEffect_of_writeResultAndFlag rfl (fun _ => rfl) (fun _ => rfl) (fun _ => rfl) (fun _ _ => id)
      fun _ _ hresult hflag =>
        ⟨fun hx => by rw [hresult hx, toNat_byte_sub], by rw [hflag, flagByte_notBorrow]⟩
  · exact plainEffect_of_writeResultAndFlag rfl (fun _ => rfl) (fun _ => rfl) (fun _ => rfl) (fun _ _ => id)
      fun _ _ hresult hflag =>
        ⟨fun hx => by rw [hresult hx, toNat_byte_sub], by rw [hflag, flagByte_notBorrow]⟩

/-- Settles O33: the result is `V[x]` shifted by one, the flag the bit that the shift loses. -/
theorem shiftsMoveOneBitIntoTheFlag : Obligations.ShiftsMoveOneBitIntoTheFlag := by
  refine ⟨encodedAs_shr, encodedAs_shl, fun x y => ⟨?_, ?_⟩⟩
  · exact plainEffect_of_writeResultAndFlag rfl (fun _ => rfl) (fun _ => rfl) (fun _ => rfl) (fun _ _ => id)
      fun _ _ hresult hflag =>
        ⟨fun hx => by rw [hresult hx, BitVec.toNat_ushiftRight, Nat.shiftRight_one],
          by rw [hflag, toNat_flagByte_lostLow]⟩
  · exact plainEffect_of_writeResultAndFlag rfl (fun _ => rfl) (fun _ => rfl) (fun _ => rfl) (fun _ _ => id)
      fun _ _ hresult hflag =>
        ⟨fun hx => by rw [hresult hx, BitVec.toNat_shiftLeft, Nat.shiftLeft_eq, Nat.pow_one, Nat.mul_comm],
          by rw [hflag, toNat_flagByte_lostHigh]⟩

end Sys2Proof.Meaning
end

section
/-! Randomness: RND (45_random.md R160, R161). It writes the masked free byte to `V[x]`, consumes one draw and advances
by 2. -/

namespace Sys2Proof.Machine

/-- R160: one draw of the same source is consumed. -/
theorem consumeByte_rng (s : State) : (consumeByte s).rng = { s.rng with drawn := s.rng.drawn + 1 } := rfl

/-- R161: no bit outside the mask is set in a masked byte. -/
theorem byte_and_and_not (a kk : Byte) : a &&& kk &&& ~~~kk = 0 := by
  rw [BitVec.and_assoc, BitVec.and_not_self]
  exact BitVec.and_zero

end Sys2Proof.Machine

namespace Sys2Proof.Meaning

open Sys2Proof.Machine Sys2Proof.Claim

theorem encodedAs_rnd : EncodedAs 0xC000 0xF000 (fun w => .rnd (xOf w) (kkOf w)) :=
  .of_mem_catalog (t := ⟨"RND", 0xC000, 0xF000, .xkk, fun f => .rnd f.x f.kk⟩) (by simp [catalog, catalogSecond])
    fun w => congrArg₂ Instr.rnd (fieldsOf_x w) (fieldsOf_kk w)

/-- Where RND completes, `V[x]` holds the next free byte of the state before, masked with `kk`. -/
theorem readV_effect_rnd (x : Reg) (kk : Byte) (s : State) :
    (effect (.rnd x kk) s).readV x = s.nextByte &&& kk :=
  readV_writeV_same (consumeByte s) x (s.nextByte &&& kk)

/-- RND leaves the source as consuming one draw leaves it. -/
theorem rng_effect_rnd (x : Reg) (kk : Byte) (s : State) :
    (effect (.rnd x kk) s).rng = { s.rng with drawn := s.rng.drawn + 1 } :=
  consumeByte_rng s

/-- Settles O34: what RND leaves in `V[x]` and in the source (log 1), for every value of the free byte. -/
theorem randomByteIsMasked : Obligations.RandomByteIsMasked := by
  refine ⟨encodedAs_rnd, fun x kk => plainEffect_of_check rfl (fun _ => rfl) (fun _ => rfl) (fun s v => ?_)
    fun _ _ => id⟩
  rw [State.withPc_readV, State.withPc_rng, readV_effect_rnd, rng_effect_rnd]
  exact ⟨rfl, byte_and_and_not s.nextByte kk, rfl, rfl⟩

end Sys2Proof.Meaning
end

section
/-! Memory-indexed instructions: LD_I, ADD_I, LD_F, LD_B, ST_REGS, LD_REGS (46_memory_indexed.md R165 to R171). The
first three are one write of `I`; the last three check a run of bytes from `I` on before `pc` (R171), and their claims are
what the run of bytes and the registers then hold. -/

namespace Sys2Proof.Machine

/-- R24: what is written to `I` is reduced modulo 65536. -/
theorem toNat_I_setI (s : State) (v : Nat) : (s.setI v).I.toNat = v % 65536 := BitVec.toNat_ofNat v 16

/-- R169: where the stored registers lie. -/
theorem read_writeBytes_readRegs {s : State} (hm : Memory.wf s.mem) {a n : Nat} (hn : n < 16) (ha : a + n ≤ 4095)
    {r : Reg} (hr : r.val ≤ n) : (s.mem.writeBytes a (s.readRegs (n + 1))).read (a + r.val) = s.readV r := by
  have hlen : (s.readRegs (n + 1)).length = n + 1 := length_readRegs s hn
  have hlt : r.val < n + 1 := Nat.lt_succ_of_le hr
  have hroom : a + (s.readRegs (n + 1)).length ≤ Config.memSize := by rw [hlen]; exact Nat.succ_le_succ ha
  rw [Memory.read_writeBytes_inside hm hroom (hlen.symm ▸ hlt) 0, getD_readRegs s r 0 hlt]

/-- R168: where the three digits lie. -/
theorem toNat_read_writeBytes_decimalDigits {m : Memory} (hm : Memory.wf m) {a : Nat} (ha : a + 2 ≤ 4095) (v : Byte) :
    ((m.writeBytes a (decimalDigits v)).read a).toNat = v.toNat / 100 ∧
      ((m.writeBytes a (decimalDigits v)).read (a + 1)).toNat = v.toNat / 10 % 10 ∧
      ((m.writeBytes a (decimalDigits v)).read (a + 2)).toNat = v.toNat % 10 := by
  have hread (k : Nat) (hk : k < 3) :
      ((m.writeBytes a (decimalDigits v)).read (a + k)).toNat = ((decimalDigits v).getD k 0).toNat :=
    congrArg BitVec.toNat (Memory.read_writeBytes_inside hm (Nat.succ_le_succ ha) hk 0)
  obtain ⟨hundreds, tens, ones⟩ := toNat_getD_decimalDigits v
  exact ⟨(hread 0 (by decide)).trans hundreds, (hread 1 (by decide)).trans tens, (hread 2 (by decide)).trans ones⟩

/-- R170: the registers up to `V[n]` hold the bytes read. -/
theorem readV_writeRegs_readBytes (s : State) (m : Memory) (a : Nat) {n : Nat} {r : Reg} (hr : r.val ≤ n) :
    (s.writeRegs (m.readBytes a (n + 1))).readV r = m.read (a + r.val) := by
  rw [readV_writeRegs, Memory.getD_readBytes m a (Nat.lt_succ_of_le hr)]

end Sys2Proof.Machine

namespace Sys2Proof.Meaning

open Sys2Proof.Machine Sys2Proof.Claim

/-! ## Encodings -/

/-- A row of the catalog of shape X encodes what it builds from its register. -/
theorem encodedAs_of_x_mem_catalog {name : String} {p : Word} {build : Reg → Instr}
    (h : ⟨name, p, 0xF0FF, .x, fun f => build f.x⟩ ∈ catalog) : EncodedAs p 0xF0FF (fun w => build (xOf w)) :=
  .of_mem_catalog h fun w => congrArg build (fieldsOf_x w)

theorem encodedAs_ldI : EncodedAs 0xA000 0xF000 (fun w => .ldI (nnnOf w)) :=
  .of_mem_catalog (t := ⟨"LD_I", 0xA000, 0xF000, .a, fun f => .ldI f.nnn⟩) (by simp [catalog, catalogSecond])
    fun w => congrArg Instr.ldI (fieldsOf_nnn w)

theorem encodedAs_addI : EncodedAs 0xF01E 0xF0FF (fun w => .addI (xOf w)) :=
  encodedAs_of_x_mem_catalog (name := "ADD_I") (by simp [catalog, catalogSecond])

theorem encodedAs_ldF : EncodedAs 0xF029 0xF0FF (fun w => .ldF (xOf w)) :=
  encodedAs_of_x_mem_catalog (name := "LD_F") (by simp [catalog, catalogSecond])

theorem encodedAs_ldB : EncodedAs 0xF033 0xF0FF (fun w => .ldB (xOf w)) :=
  encodedAs_of_x_mem_catalog (name := "LD_B") (by simp [catalog, catalogSecond])

theorem encodedAs_stRegs : EncodedAs 0xF055 0xF0FF (fun w => .stRegs (xOf w)) :=
  encodedAs_of_x_mem_catalog (name := "ST_REGS") (by simp [catalog, catalogSecond])

theorem encodedAs_ldRegs : EncodedAs 0xF065 0xF0FF (fun w => .ldRegs (xOf w)) :=
  encodedAs_of_x_mem_catalog (name := "LD_REGS") (by simp [catalog, catalogSecond])

/-! ## A run of bytes at `I` -/

/-- R63, R171: a run that ends above 4095 faults with the lowest address above it. -/
theorem rangeCheck_eq_error {a n : Nat} (h : 4095 < a + n) :
    rangeCheck a (n + 1) = .error (.memoryRange (max a 4096)) :=
  if_pos (decide_eq_true ⟨Nat.succ_pos n, h⟩)

/-- An instruction that checks the run of bytes `I .. I+n` and advances by 2: the fault of the memory check, the fault of
the counter (in this order, R171), and the completion. -/
theorem faults_or_completes_of_rangeCheck {i : Instr} {s : State} {n : Nat} {e : State → Prop} {c : Place → Prop}
    (heven : s.pc.toNat % 2 = 0) (hi : stops i = false) (hcheck : check i s = rangeCheck s.I.toNat (n + 1))
    (hafter : pcAfter i s = s.pc.toNat + 2)
    (heffect : s.I.toNat + n ≤ 4095 → ∀ v, e ((effect i s).withPc v))
    (hchange : ∀ p, mayChange i s p → p = .pc ∨ c p) :
    (4095 < s.I.toNat + n → exec i s = .fault (.memoryRange (max s.I.toNat 4096))) ∧
      (s.I.toNat + n ≤ 4095 → s.pc.toNat = 4094 → exec i s = .fault (.pcRange 4096)) ∧
      (s.I.toNat + n ≤ 4095 → s.pc.toNat ≤ 4092 → Completes i s (s.pc.toNat + 2) e c) := by
  have hpass (hI : s.I.toNat + n ≤ 4095) : check i s = .ok () :=
    hcheck.trans (rangeCheck_eq_ok (Nat.succ_le_succ hI))
  refine ⟨fun hI => ?_, fun hI hpc => ?_, fun hI hpc => ?_⟩
  · exact exec_eq_fault_of_check_error (hcheck.trans (rangeCheck_eq_error hI))
  · have hafter : pcAfter i s = 4096 := by rw [hafter, hpc]
    rw [← hafter]
    exact exec_eq_fault_of_pcAfter hi (hpass hI) (.inr (by omega))
  · rw [← hafter]
    exact completes_of_check hi (hpass hI) (by omega) (by omega) (heffect hI) hchange

/-- Settles O37: the bytes stored are the three digits. -/
theorem decimalDigitsAreStored : Obligations.DecimalDigitsAreStored :=
  ⟨encodedAs_ldB, fun x s heven hm => faults_or_completes_of_rangeCheck (i := .ldB x) heven rfl rfl rfl
    (fun hI _ => toNat_read_writeBytes_decimalDigits hm hI (s.readV x)) fun _ => id⟩

/-- Settles O38: the bytes stored are the registers `V[0]` to `V[x]`. -/
theorem bulkStoreWritesTheRegisters : Obligations.BulkStoreWritesTheRegisters :=
  ⟨encodedAs_stRegs, fun x _ heven hm => faults_or_completes_of_rangeCheck (i := .stRegs x) heven rfl rfl rfl
    (fun hI _ _ hr => read_writeBytes_readRegs hm x.isLt hI hr) fun _ => id⟩

/-- Settles O39: the registers `V[0]` to `V[x]` are the bytes read. -/
theorem bulkLoadReadsTheRegisters : Obligations.BulkLoadReadsTheRegisters :=
  ⟨encodedAs_ldRegs, fun x s heven => faults_or_completes_of_rangeCheck (i := .ldRegs x) heven rfl rfl rfl
    (fun _ _ _ hr => readV_writeRegs_readBytes s s.mem s.I.toNat hr) fun _ => id⟩

/-! ## The index register written -/

/-- An instruction without checks that writes `value` to `I` and advances by 2: its effect is whatever follows from what
`I` then holds, and nothing else changes. -/
theorem plainEffect_of_setI {i : Instr} {value : State → Nat} {e : State → State → Prop} (hi : stops i = false)
    (hcheck : ∀ s, check i s = .ok ()) (hafter : ∀ s, pcAfter i s = s.pc.toNat + 2)
    (heffect : ∀ s, effect i s = s.setI (value s)) (hchange : ∀ s p, mayChange i s p → p = .pc ∨ p = .index)
    (hvalue : ∀ s t : State, t.I.toNat = value s % 65536 → e s t) : PlainEffect i e (fun _ p => p = .index) := by
  refine plainEffect_of_check hi hcheck hafter (fun s v => hvalue s _ ?_) hchange
  rw [State.withPc_I, heffect, toNat_I_setI]

/-- Settles O35: a 12-bit address is not reduced. -/
theorem setIndexRegister : Obligations.SetIndexRegister := by
  refine ⟨encodedAs_ldI, fun nnn => plainEffect_of_setI rfl (fun _ => rfl) (fun _ => rfl) (fun _ => rfl)
    (fun _ _ => id) fun _ _ hI => ?_⟩
  have hlt : nnn.toNat < 4096 := nnn.isLt
  rw [hI, Nat.mod_eq_of_lt (by omega)]

/-- Settles O36: ADD_I writes the sum, which is reduced; LD_F the address of a glyph, which is at most 1275 above
FONT_BASE and so is not. -/
theorem addToIndexAndGlyphAddress : Obligations.AddToIndexAndGlyphAddress := by
  refine ⟨encodedAs_addI, encodedAs_ldF, fun x => ⟨?_, ?_⟩⟩
  · exact plainEffect_of_setI rfl (fun _ => rfl) (fun _ => rfl) (fun _ => rfl) (fun _ _ => id) fun _ _ => id
  · refine plainEffect_of_setI rfl (fun _ => rfl) (fun _ => rfl) (fun _ => rfl) (fun _ _ => id) fun s _ hI => ?_
    have hlt : (s.readV x).toNat < 256 := (s.readV x).isLt
    have hbase : Config.fontBase = 0 := rfl
    have hsum : Config.fontBase + 5 * (s.readV x).toNat < 65536 := by omega
    exact hI.trans (Nat.mod_eq_of_lt hsum)

end Sys2Proof.Meaning
end

section
/-! Display: DRW (47_display.md R180 to R183). It checks the sprite's rows in memory, then its box, and then moves `pc`;
what it draws is told cell by cell through `spriteBit`, from which drawing the same sprite twice undoes itself. -/

namespace Sys2Proof.Claim

open Sys2Proof.Machine

theorem fieldsOf_n (w : Word) : (fieldsOf w).n = nOf w := by
  obtain ⟨-, -, -, -, hn⟩ := fieldsAreBitSlices w
  exact Fin.ext hn

/-! ## The sprite and the flag -/

/-- The cells that DRW toggles are those where the sprite has a bit. -/
theorem mem_spriteCells_iff_spriteBit {s : State} {px py n cx cy : Nat} :
    (cx, cy) ∈ spriteCells px py (s.mem.readBytes s.I.toNat n) ↔ spriteBit s px py n cx cy = true := by
  rw [mem_spriteCells, Memory.length_readBytes, spriteBit, Bool.and_eq_true, decide_eq_true_eq]
  constructor
  · rintro ⟨hy, hy', hx, hx', hbit⟩
    rw [Memory.getD_readBytes _ _ (by omega)] at hbit
    exact ⟨⟨hx, hx', hy, hy'⟩, hbit⟩
  · rintro ⟨⟨hx, hx', hy, hy'⟩, hbit⟩
    rw [Memory.getD_readBytes _ _ (by omega)]
    exact ⟨hy, hy', hx, hx', hbit⟩

/-- A sprite's bits are the same in two states with the same `I` and the same bytes. -/
theorem spriteBit_congr {s t : State} (hI : t.I = s.I) (hmem : ∀ a, t.mem.read a = s.mem.read a)
    (px py n cx cy : Nat) : spriteBit t px py n cx cy = spriteBit s px py n cx cy := by
  simp only [spriteBit, hI, hmem]

theorem flagByte_eq_zero_or_one (b : Bool) : flagByte b = 0 ∨ flagByte b = 1 := by
  cases b
  · exact .inl rfl
  · exact .inr rfl

theorem flagByte_eq_one_iff {b : Bool} : flagByte b = 1 ↔ b = true := by
  cases b <;> decide

/-- R180: some cell of the sprite was set before. -/
theorem hit_drawSprite_iff {s : State} (hg : Pixels.wf s.gfx s.width.toNat s.height.toNat) (px py n : Nat) :
    (drawSprite px py (s.mem.readBytes s.I.toNat n) s.gfx).2 = true ↔
      ∃ cx cy, s.gfx.get cx cy = true ∧ spriteBit s px py n cx cy = true := by
  rw [hit_drawSprite hg.1, List.any_eq_true, Prod.exists]
  simp only [mem_spriteCells_iff_spriteBit, and_comm]

/-- What DRW of `n` rows at (`px`, `py`) leaves in `draw`, in the cells and in VF (R180). -/
def Drawn (s : State) (px py n : Nat) (t : State) : Prop :=
  t.draw = true ∧
    (∀ cx cy, t.gfx.get cx cy = (s.gfx.get cx cy ^^ spriteBit s px py n cx cy)) ∧
    (t.readV 15 = 0 ∨ t.readV 15 = 1) ∧
    (t.readV 15 = 1 ↔ ∃ cx cy, s.gfx.get cx cy = true ∧ spriteBit s px py n cx cy = true)

end Sys2Proof.Claim

namespace Sys2Proof.Meaning

open Sys2Proof.Machine Sys2Proof.Claim

theorem encodedAs_drw : EncodedAs 0xD000 0xF000 (fun w => .drw (xOf w) (yOf w) (nOf w)) :=
  .of_mem_catalog (t := ⟨"DRW", 0xD000, 0xF000, .xyn, fun f => .drw f.x f.y f.n⟩) (by simp [catalog, catalogSecond])
    fun w => by simp only [fieldsOf_x, fieldsOf_y, fieldsOf_n]

section

variable {x y : Reg} {n : Fin 16} {s : State}

/-! ## The checks, in their order -/

/-- Rows beyond the memory fault whatever else is wrong. -/
theorem check_drw_of_rows_outside (hn : 0 < n.val) (hrows : 4095 < s.I.toNat + n.val - 1) :
    check (.drw x y n) s = .error (.memoryRange (max s.I.toNat 4096)) := by
  have hrange : rangeCheck s.I.toNat n.val = .error (.memoryRange (max s.I.toNat 4096)) :=
    if_pos (decide_eq_true ⟨hn, hrows⟩)
  rw [check, hrange]
  rfl

/-- With its rows inside the memory, DRW checks its box. -/
theorem check_drw_of_rows_inside (hrows : n.val = 0 ∨ s.I.toNat + n.val - 1 ≤ 4095) :
    check (.drw x y n) s = boxCheck Config.drawEdge (s.readV x).toNat (s.readV y).toNat n.val s := by
  have hsize : Config.memSize = 4096 := rfl
  have hin : outOfRange s.I.toNat n.val = false := outOfRange_eq_false_iff.mpr (by omega)
  rw [check, rangeCheck, hin]
  rfl

theorem check_drw_of_box_outside (hrows : n.val = 0 ∨ s.I.toNat + n.val - 1 ≤ 4095)
    (hbox : ¬ BoxInside s (s.readV x).toNat (s.readV y).toNat n.val) :
    check (.drw x y n) s = .error (.displayRange (s.readV x).toNat (s.readV y).toNat n.val) := by
  have hout : boxOutside (s.readV x).toNat (s.readV y).toNat n.val s = true :=
    Bool.eq_true_of_not_eq_false (mt boxOutside_eq_false_iff.mp hbox)
  rw [check_drw_of_rows_inside hrows]
  exact boxCheck_eq_error_iff.mpr ⟨hout, rfl⟩

theorem check_drw_eq_ok (hrows : n.val = 0 ∨ s.I.toNat + n.val - 1 ≤ 4095)
    (hbox : BoxInside s (s.readV x).toNat (s.readV y).toNat n.val) : check (.drw x y n) s = .ok () := by
  rw [check_drw_of_rows_inside hrows]
  exact boxCheck_eq_ok_iff.mpr (boxOutside_eq_false_iff.mpr hbox)

/-! ## The effect -/

theorem drawn_effect_drw (hg : Pixels.wf s.gfx s.width.toNat s.height.toNat) (v : Addr) :
    Drawn s (s.readV x).toNat (s.readV y).toNat n.val ((effect (.drw x y n) s).withPc v) := by
  have hflag : ((effect (.drw x y n) s).withPc v).readV 15 = flagByte (drawSprite (s.readV x).toNat
      (s.readV y).toNat (s.mem.readBytes s.I.toNat n.val) s.gfx).2 := readV_writeV_same _ flagReg _
  refine ⟨rfl, fun cx cy => ?_, ?_, ?_⟩
  · refine (get_drawSprite hg.1 cx cy).trans (congrArg _ ?_)
    rw [Bool.eq_iff_iff, decide_eq_true_eq, mem_spriteCells_iff_spriteBit]
  · rw [hflag]
    exact flagByte_eq_zero_or_one _
  · rw [hflag, flagByte_eq_one_iff]
    exact hit_drawSprite_iff hg _ _ _

/-- DRW that passes its checks keeps the buffer's canonical form. -/
theorem wf_effect_drw_gfx (hg : Pixels.wf s.gfx s.width.toNat s.height.toNat)
    (hbox : BoxInside s (s.readV x).toNat (s.readV y).toNat n.val) :
    Pixels.wf (effect (.drw x y n) s).gfx s.width.toNat s.height.toNat := by
  refine wf_drawSprite hg fun p hp => ?_
  obtain ⟨hrow, hrow', hcol, hcol', -⟩ := mem_spriteCells.mp hp
  rw [Memory.length_readBytes] at hrow'
  unfold BoxInside at hbox
  omega

theorem completes_drw (heven : s.pc.toNat % 2 = 0) (hpc : s.pc.toNat ≤ 4092)
    (hg : Pixels.wf s.gfx s.width.toNat s.height.toNat) (hrows : n.val = 0 ∨ s.I.toNat + n.val - 1 ≤ 4095)
    (hbox : BoxInside s (s.readV x).toNat (s.readV y).toNat n.val) :
    Completes (.drw x y n) s (s.pc.toNat + 2) (Drawn s (s.readV x).toNat (s.readV y).toNat n.val)
      (fun p => p = .draw ∨ p = .reg 15 ∨ InBox (s.readV x).toNat (s.readV y).toNat n.val p) :=
  completes_of_check (i := .drw x y n) rfl (check_drw_eq_ok hrows hbox) ((Nat.add_mod_right _ 2).trans heven)
    (Nat.add_le_add_right hpc 2) (drawn_effect_drw hg) fun _ => id

end

/-- Settles O40: the encoding by its row of the catalog, the rest by what DRW draws. -/
theorem drawXorsTheSprite : Obligations.DrawXorsTheSprite := by
  refine ⟨encodedAs_drw, ?_⟩
  rintro x y n s _ _ rfl rfl heven hpc hg hrows hbox
  exact completes_drw heven hpc hg hrows hbox

/-- Settles O41: one fault for each check, the counter's when both others pass. -/
theorem drawFaultsInOrder : Obligations.DrawFaultsInOrder := by
  rintro x y n s _ _ rfl rfl -
  refine ⟨fun hn hrows => ?_, fun hrows hbox => ?_, fun hrows hbox hpc => ?_⟩
  · exact exec_eq_fault_of_check_error (check_drw_of_rows_outside hn hrows)
  · exact exec_eq_fault_of_check_error (check_drw_of_box_outside hrows hbox)
  · have hafter : pcAfter (.drw x y n) s = 4096 := congrArg (· + 2) hpc
    rw [← hafter]
    exact exec_eq_fault_of_pcAfter rfl (check_drw_eq_ok hrows hbox) (.inr (by omega))

/-! ## The same sprite twice -/

/-- Two draws of the same bits leave every cell as it was. -/
theorem get_of_drawn_drawn {s t u : State} {px py n : Nat} (hs : Drawn s px py n t) (ht : Drawn t px py n u)
    (hbit : ∀ cx cy, spriteBit t px py n cx cy = spriteBit s px py n cx cy) (cx cy : Nat) :
    u.gfx.get cx cy = s.gfx.get cx cy := by
  obtain ⟨-, hget, -⟩ := hs
  obtain ⟨-, hget', -⟩ := ht
  rw [hget', hget, hbit, Bool.xor_assoc, Bool.xor_self, Bool.xor_false]

/-- The second of two draws of the same bits collides exactly where the first set a cell. -/
theorem flag_of_drawn_drawn {s t u : State} {px py n : Nat} (hs : Drawn s px py n t) (ht : Drawn t px py n u)
    (hbit : ∀ cx cy, spriteBit t px py n cx cy = spriteBit s px py n cx cy) :
    u.readV 15 = 1 ↔ ∃ cx cy, s.gfx.get cx cy = false ∧ spriteBit s px py n cx cy = true := by
  obtain ⟨-, hget, -⟩ := hs
  obtain ⟨-, -, -, hflag⟩ := ht
  refine hflag.trans (exists_congr fun cx => exists_congr fun cy => ?_)
  rw [hbit]
  refine and_congr_left fun hb => ?_
  rw [hget, hb, Bool.xor_true, Bool.not_eq_true']

/-- Settles O42: the first draw leaves the coordinates, `I` and the sprite's bytes as they were, so the second draws the
same bits at the same place; the buffers are in canonical form, so equal cells make them equal lists. -/
theorem drawingTwiceRestoresTheBuffer : Obligations.DrawingTwiceRestoresTheBuffer := by
  rintro x y n s _ _ hx hy rfl rfl heven hpc hg hrows hbox
  obtain ⟨t, hexec, htpc, hdrawn, hframe⟩ := completes_drw heven (by omega) hg hrows hbox
  have hVx : t.readV x = s.readV x := hframe (.reg x) (by simp [InBox, hx])
  have hVy : t.readV y = s.readV y := hframe (.reg y) (by simp [InBox, hy])
  have hI : t.I = s.I := hframe .index (by simp [InBox])
  have hmem (a : Nat) : t.mem.read a = s.mem.read a := hframe (.byte a) (by simp [InBox])
  have hwidth : t.width = s.width := hframe .width (by simp [InBox])
  have hheight : t.height = s.height := hframe .height (by simp [InBox])
  have hgt : Pixels.wf t.gfx t.width.toNat t.height.toNat := by
    rw [(exec_gfx_draw hexec).1, hwidth, hheight]
    exact wf_effect_drw_gfx hg hbox
  have hbox' : BoxInside t (t.readV x).toNat (t.readV y).toNat n.val := by
    rw [BoxInside, hVx, hVy, hwidth, hheight]
    exact hbox
  obtain ⟨u, hexec', -, hdrawn', -⟩ := completes_drw (by omega) (by omega) hgt (hI ▸ hrows) hbox'
  have hgu : Pixels.wf u.gfx t.width.toNat t.height.toNat := by
    rw [(exec_gfx_draw hexec').1]
    exact wf_effect_drw_gfx hgt hbox'
  rw [hVx, hVy] at hdrawn'
  have hbit := spriteBit_congr hI hmem (s.readV x).toNat (s.readV y).toNat n.val
  exact ⟨t, u, hexec, hexec', Pixels.eq_of_get_eq hgu.1 hg.1 (get_of_drawn_drawn hdrawn hdrawn' hbit),
    flag_of_drawn_drawn hdrawn hdrawn' hbit⟩

end Sys2Proof.Meaning
end

section
/-! The events (60_exceptions.md R215 to R238, 70_reset_and_hazards.md R256 to R259): what a Load answers and what a header
does, then the frame of every event but Reset and Cycle, then the invariant over events. -/

namespace Sys2Proof.Claim

open Sys2Proof.Machine

namespace Frame

section

variable {s t : State} {c : Place → Prop} (hf : Frame s t c)
include hf

theorem withWidth (h : c .width) (v : Byte) : Frame s (t.withWidth v) c := fun p hp => by
  cases p with
  | width => exact absurd h hp
  | _ => exact hf _ hp

theorem withHeight (h : c .height) (v : Byte) : Frame s (t.withHeight v) c := fun p hp => by
  cases p with
  | height => exact absurd h hp
  | _ => exact hf _ hp

theorem withFault (h : c .faultRecord) (v : Option Fault) : Frame s (t.withFault v) c := fun p hp => by
  cases p with
  | faultRecord => exact absurd h hp
  | _ => exact hf _ hp

theorem withLoadEnabled (h : c .loadWindow) (v : Bool) : Frame s (t.withLoadEnabled v) c := fun p hp => by
  cases p with
  | loadWindow => exact absurd h hp
  | _ => exact hf _ hp

end

end Frame

end Sys2Proof.Claim

namespace Sys2Proof.Machine

open Sys2Proof.Claim

/-! ## The header -/

/-- Byte `k` of the 16 that trail the image (R258). -/
def trailingByte (bytes : List Byte) (k : Nat) : Byte := bytes.getD (bytes.length - 16 + k) 0

/-- The image ends in a header: it is longer than 16 bytes, and the trailing 16 begin with the sentinel (R258). -/
def HasHeader (bytes : List Byte) : Prop :=
  16 < bytes.length ∧ (trailingByte bytes 0, trailingByte bytes 1) = Config.headerSentinel

theorem headerByte_drop (bytes : List Byte) (k : Nat) :
    headerByte (bytes.drop (bytes.length - Config.headerLen)) k = trailingByte bytes k := by
  simp [headerByte, trailingByte, Config.headerLen, List.getD]

theorem hasSentinel_drop_iff {bytes : List Byte} :
    hasSentinel (bytes.drop (bytes.length - Config.headerLen)) = true ↔
      (trailingByte bytes 0, trailingByte bytes 1) = Config.headerSentinel := by
  rw [hasSentinel, decide_eq_true_eq, headerByte_drop, headerByte_drop]
  rfl

theorem trailingHeader_of_long {bytes : List Byte} (h : 16 < bytes.length) :
    trailingHeader bytes = some (bytes.drop (bytes.length - Config.headerLen)) := if_pos h

theorem trailingHeader_of_short {bytes : List Byte} (h : ¬ 16 < bytes.length) : trailingHeader bytes = none := if_neg h

theorem applyHeader_of_hasHeader {bytes : List Byte} (h : HasHeader bytes) (s : State) :
    applyHeader bytes s = resize (trailingByte bytes 6) (trailingByte bytes 7) s := by
  obtain ⟨hlong, hsentinel⟩ := h
  simp only [applyHeader, trailingHeader_of_long hlong, hasSentinel_drop_iff.mpr hsentinel, headerByte_drop]
  rfl

theorem applyHeader_of_not_hasHeader {bytes : List Byte} (h : ¬ HasHeader bytes) (s : State) :
    applyHeader bytes s = s := by
  by_cases hlong : 16 < bytes.length
  · have hsentinel : ¬ hasSentinel (bytes.drop (bytes.length - Config.headerLen)) = true :=
      mt hasSentinel_drop_iff.mp fun hs => h ⟨hlong, hs⟩
    simp only [applyHeader, trailingHeader_of_long hlong, if_neg hsentinel]
  · simp only [applyHeader, trailingHeader_of_short hlong]

/-! ## The Load -/

/-- The state with the image copied to ENTRY and the load window closed (R256, R257). -/
def copied (bytes : List Byte) (s : State) : State :=
  (s.withMem (s.mem.writeBytes Config.entry bytes)).withLoadEnabled false

/-- The state that a Load leaves when it completes (R257, R258). -/
def loaded (bytes : List Byte) (s : State) : State := applyHeader bytes (copied bytes s)

/-- A Load that completes copies the image and, with a header, resizes the display. -/
theorem loaded_rec {P : State → Prop} {bytes : List Byte} {s : State} (hcopy : P (copied bytes s))
    (hresize : ∀ w h, P (resize w h (copied bytes s))) : P (loaded bytes s) := by
  by_cases hheader : HasHeader bytes
  · rw [loaded, applyHeader_of_hasHeader hheader]
    exact hresize _ _
  · rwa [loaded, applyHeader_of_not_hasHeader hheader]

theorem load_of_fault {s : State} (h : s.fault ≠ none) (bytes : List Byte) : load bytes s = .next s :=
  if_pos (Option.isSome_iff_ne_none.mpr h)

theorem load_of_not_enabled {s : State} (hfault : s.fault = none) (h : s.loadEnabled = false) (bytes : List Byte) :
    load bytes s = .refused .loadNotEnabled := by
  simp [load, hfault, h]

theorem load_of_too_long {s : State} (hfault : s.fault = none) (hen : s.loadEnabled = true) {bytes : List Byte}
    (h : 4096 < Config.entry + bytes.length) : load bytes s = .fault (.memoryRange 4096) := by
  simp [load, hfault, hen, Config.memSize, h, raise]

theorem load_of_fits {s : State} (hfault : s.fault = none) (hen : s.loadEnabled = true) {bytes : List Byte}
    (h : Config.entry + bytes.length ≤ 4096) : load bytes s = .next (loaded bytes s) := by
  simp [load, hfault, hen, Config.memSize, Nat.not_lt.mpr h, loaded, copied]

/-- A Load that answers a next state meets a dead machine, or completes. -/
theorem load_eq_next {bytes : List Byte} {s t : State} (h : load bytes s = .next t) :
    (s.fault ≠ none ∧ t = s) ∨ (s.fault = none ∧ t = loaded bytes s) := by
  by_cases hfault : s.fault = none
  · refine .inr ⟨hfault, ?_⟩
    cases hen : s.loadEnabled with
    | false => cases (load_of_not_enabled hfault hen bytes).symm.trans h
    | true =>
      by_cases hfit : Config.entry + bytes.length ≤ 4096
      · cases (load_of_fits hfault hen hfit).symm.trans h
        rfl
      · cases (load_of_too_long hfault hen (Nat.lt_of_not_le hfit)).symm.trans h
  · cases (load_of_fault hfault bytes).symm.trans h
    exact .inl ⟨hfault, rfl⟩

/-- What a Load that completes may change: the image, the geometry with its registers and the cells, the load window. -/
def loadMayChange (bytes : List Byte) (p : Place) : Prop :=
  p = .loadWindow ∨ (∃ k, k < bytes.length ∧ p = .byte (Config.entry + k)) ∨
    p = .width ∨ p = .height ∨ (∃ cx cy, p = .pixel cx cy) ∨
    p = .reg Config.geomRegW ∨ p = .reg Config.geomRegH

theorem resize_frame {s t : State} {bytes : List Byte} (hf : Frame s t (loadMayChange bytes)) (w h : Byte) :
    Frame s (resize w h t) (loadMayChange bytes) := by
  have hsize := (hf.withWidth (by simp [loadMayChange]) w).withHeight (by simp [loadMayChange]) h
  have hcells := hsize.withGfx (g := Pixels.clear) fun cx cy hc => absurd (by simp [loadMayChange]) hc
  exact (hcells.writeV (by simp [loadMayChange]) w).writeV (by simp [loadMayChange]) h

theorem loaded_frame (bytes : List Byte) (s : State) : Frame s (loaded bytes s) (loadMayChange bytes) := by
  have himage := (Frame.refl s (loadMayChange bytes)).writeBytes fun k hk => .inr (.inl ⟨k, hk, rfl⟩)
  have hcopy : Frame s (copied bytes s) (loadMayChange bytes) := himage.withLoadEnabled (.inl rfl) false
  exact loaded_rec (P := (Frame s · (loadMayChange bytes))) hcopy (resize_frame hcopy)

/-! ## What each event may change -/

/-- What is true of the next state, of the state with the fault recorded and of the state as it was is true of what a
request leaves. -/
theorem settle_rec {P : State → Prop} {s : State} {r : Result} (hnext : ∀ t, r = .next t → P t)
    (hfault : ∀ f, r = .fault f → P (s.withFault (some f))) (hrefused : P s) : P (settle s r) := by
  cases r with
  | next t => exact hnext t rfl
  | fault f => exact hfault f rfl
  | refused q => exact hrefused

theorem whenLive_of_fault {s : State} (h : s.fault ≠ none) (t : State) : whenLive s t = s :=
  if_pos (Option.isSome_iff_ne_none.mpr h)

theorem whenLive_of_live {s : State} (h : s.fault = none) (t : State) : whenLive s t = t := by
  simp [whenLive, h]

/-- ResolveKey leaves the state or completes the wait by some key (48_input_timers.md R193). -/
theorem resolveKey_rec {P : State → Prop} {s : State} (hs : P s) (hwait : ∀ k, P (completeWait k s)) :
    P (resolveKey s) := by
  unfold resolveKey whenLive
  split
  · exact hs
  · split
    · split
      · exact hwait _
      · exact hs
    · exact hs

/-- The places that each event but Reset and Cycle may change (R215, R235 to R238; 48_input_timers.md R193). -/
def eventMayChange (e : Event) (s : State) (p : Place) : Prop :=
  match e with
  | .reset | .cycle => True
  | .load bytes => p = .faultRecord ∨ loadMayChange bytes p
  | .setKeys _ => ∃ k, p = .key k
  | .resolveKey => p = .blocking ∨ p = .reg s.blockTarget
  | .timerTick => p = .delayTimer ∨ p = .soundTimer
  | .clearDraw => p = .draw

theorem completeWait_frame (k : Fin 16) (s : State) :
    Frame s (completeWait k s) (eventMayChange .resolveKey s) :=
  ((Frame.refl s _).writeV (.inr rfl) _).withBlocking (.inl rfl) false

theorem after_load_frame (bytes : List Byte) (s : State) :
    Frame s (Event.after (.load bytes) s) (eventMayChange (.load bytes) s) := by
  have hs := Frame.refl s (eventMayChange (.load bytes) s)
  refine settle_rec (P := (Frame s · _)) (fun t ht => ?_) (fun f _ => hs.withFault (.inl rfl) _) hs
  obtain ⟨-, rfl⟩ | ⟨-, rfl⟩ := load_eq_next ht
  · exact hs
  · exact (loaded_frame bytes s).mono fun _ => .inr

/-- An event changes only what it may. -/
theorem after_frame (e : Event) (s : State) : Frame s (e.after s) (eventMayChange e s) := by
  have hs := Frame.refl s (eventMayChange e s)
  cases e with
  | reset | cycle => exact fun p hp => absurd trivial hp
  | load bytes => exact after_load_frame bytes s
  | setKeys ks => exact hs.whenLive (hs.withKeys (fun k => ⟨k, rfl⟩) ks)
  | resolveKey => exact resolveKey_rec (P := (Frame s · _)) hs (completeWait_frame · s)
  | timerTick => exact hs.whenLive ((hs.withDT (.inl rfl) _).withST (.inr rfl) _)
  | clearDraw => exact hs.whenLive (hs.withDraw rfl false)

/-! ## The invariant -/

namespace State.Inv

variable {s : State} (h : s.Inv)
include h

theorem withFault (f : Option Fault) : (s.withFault f).Inv := { h with }

theorem withKeys (ks : Vector Bool 16) : (s.withKeys ks).Inv := { h with }

theorem withDT (v : Byte) : (s.withDT v).Inv := { h with }

theorem withST (v : Byte) : (s.withST v).Inv := { h with }

theorem withRng (r : RandomSource) : (s.withRng r).Inv := { h with }

/-- The end of a hold needs no premise on the flags. -/
theorem withBlocking_false : (s.withBlocking false).Inv :=
  { h with blockedNotTerminal := fun hb => absurd hb Bool.false_ne_true }

theorem whenLive {t : State} (ht : t.Inv) : (whenLive s t).Inv := by
  unfold Machine.whenLive
  split
  · exact h
  · exact ht

theorem completeWait (k : Fin 16) : (completeWait k s).Inv := (h.withV _).withBlocking_false

/-- The cleared buffer is in canonical form at every geometry. -/
theorem resize (width height : Byte) : (resize width height s).Inv := { h with gfxCanonical := Pixels.wf_clear _ _ }

theorem loaded (bytes : List Byte) : (loaded bytes s).Inv := by
  have hcopy : (copied bytes s).Inv := (h.withMem (Memory.wf_writeBytes h.memCanonical Config.entry bytes)).closeLoad
  exact loaded_rec hcopy hcopy.resize

end State.Inv

theorem load_inv {bytes : List Byte} {s t : State} (hs : s.Inv) (h : load bytes s = .next t) : t.Inv := by
  obtain ⟨-, rfl⟩ | ⟨-, rfl⟩ := load_eq_next h
  · exact hs
  · exact hs.loaded bytes

/-- Settles O14: a request keeps the invariant when its next states meet it, since recording a fault touches nothing that
the invariant speaks of; then one case for each event. -/
theorem everyEventKeepsTheInvariant : Obligations.EveryEventKeepsTheInvariant := by
  intro e s hs
  cases e with
  | reset => exact State.Inv.withRng invariantHoldsAtReset _
  | load bytes => exact settle_rec (fun _ => load_inv hs) (fun _ _ => hs.withFault _) hs
  | cycle => exact settle_rec (fun t => Meaning.everyStepKeepsTheInvariant s t hs) (fun _ _ => hs.withFault _) hs
  | setKeys ks => exact hs.whenLive (hs.withKeys ks)
  | resolveKey => exact resolveKey_rec hs hs.completeWait
  | timerTick => exact hs.whenLive ((hs.withDT _).withST _)
  | clearDraw => exact hs.whenLive (hs.withDraw false)

/-- The invariant holds after any events from reset. -/
theorem run_reset_inv (es : List Event) : (Event.run es State.reset).Inv :=
  List.foldlRecOn (motive := State.Inv) es _ invariantHoldsAtReset fun s hs e _ => everyEventKeepsTheInvariant e s hs

/-- Settles O15: the clauses of the invariant, an even number of 12 bits being at most 4094. -/
theorem reachableStatesMeetTheListedBounds : Obligations.ReachableStatesMeetTheListedBounds := by
  rintro es s rfl
  have hs := run_reset_inv es
  refine ⟨hs.pcEven, hs.pc_le, Nat.le_of_lt_succ (Fin.isLt _), fun k => ?_, hs.oneTerminal, fun hterminal => ?_⟩
  · exact ⟨hs.stackEven k, Meaning.toNat_le_of_even (hs.stackEven k)⟩
  · refine Bool.eq_false_of_not_eq_true fun hblocking => ?_
    obtain ⟨hquit, hhalted⟩ := hs.blockedNotTerminal hblocking
    exact hterminal.elim (ne_true_of_eq_false hquit) (ne_true_of_eq_false hhalted)

end Sys2Proof.Machine
end

section
/-! The faults of every instruction (60_exceptions.md R218, R220): the first fault of its row is what its checks and then
its write of `pc` give. -/

namespace Sys2Proof.Meaning

open Sys2Proof.Machine Sys2Proof.Claim

/-- The fault that an instruction meets in the model: that of its checks, else that of its write of `pc`. -/
def metFault (i : Instr) (s : State) : Option Fault :=
  match check i s with
  | .error f => some f
  | .ok _ => if stops i then none else pcFault (pcAfter i s)

theorem metFault_of_check_error {i : Instr} {s : State} {f : Fault} (h : check i s = .error f) :
    metFault i s = some f := by
  rw [metFault, h]

theorem metFault_of_check_ok {i : Instr} {s : State} (hi : stops i = false) (h : check i s = .ok ()) :
    metFault i s = pcFault (pcAfter i s) := by
  simp [metFault, h, hi]

theorem pcFault_of_even {k : Nat} (heven : k % 2 = 0) (hle : k ≤ 4094) : pcFault k = none :=
  if_neg (by omega)

theorem exec_of_metFault (i : Instr) (s : State) :
    (∀ f, metFault i s = some f → exec i s = .fault f) ∧ (metFault i s = none → ∃ t, exec i s = .next t) := by
  rw [exec_eq, metFault]
  cases check i s with
  | error f => exact ⟨fun _ hf => congrArg _ (Option.some.inj hf), nofun⟩
  | ok _ =>
    cases hi : stops i with
    | true => exact ⟨nofun, fun _ => ⟨_, finish_of_stops hi s⟩⟩
    | false =>
      simp only [orRaise_ok, finish_of_not_stops hi, Bool.false_eq_true, if_false, pcFault]
      split
      · exact ⟨fun _ hf => setPc_eq_fault_iff.mpr ⟨‹_›, (Option.some.inj hf).symm⟩, nofun⟩
      · exact ⟨nofun, fun _ => ⟨_, setPc_eq_next_iff.mpr ⟨by omega, by omega, rfl⟩⟩⟩

/-! ## The checks as the rows have them -/

theorem check_ret_of_empty {s : State} (h : s.sp.val = 0) : check .ret s = .error .stackUnderflow := if_pos h

theorem check_ret_eq_ok {s : State} (h : s.sp.val ≠ 0) : check .ret s = .ok () := if_neg h

/-- R197: the check of SKP and SKNP. -/
theorem keyIndex_map_of_above {v : Byte} (h : 15 < v.toNat) :
    (keyIndex v).map (fun _ => ()) = .error (.keyRange v.toNat) := by
  rw [keyIndex_eq_error_iff.mpr ⟨h, rfl⟩]
  rfl

theorem keyIndex_map_eq_ok {v : Byte} (h : v.toNat ≤ 15) : (keyIndex v).map (fun _ => ()) = .ok () := by
  rw [keyIndex_eq_ok_iff.mpr ⟨h, rfl⟩]
  rfl

/-- An instruction whose one check is that of a key index. -/
theorem metFault_of_keyIndex {i : Instr} {s : State} {v : Byte} (hi : stops i = false)
    (h : check i s = (keyIndex v).map fun _ => ()) :
    metFault i s = if 15 < v.toNat then some (.keyRange v.toNat) else pcFault (pcAfter i s) := by
  split
  · exact metFault_of_check_error (h.trans (keyIndex_map_of_above ‹_›))
  · exact metFault_of_check_ok hi (h.trans (keyIndex_map_eq_ok (Nat.le_of_not_lt ‹_›)))

/-- An instruction whose one check is that of a run of bytes. -/
theorem metFault_of_rangeCheck {i : Instr} {s : State} {a n : Nat} (hi : stops i = false)
    (h : check i s = rangeCheck a (n + 1)) :
    metFault i s = if 4095 < a + n then some (.memoryRange (max a 4096)) else pcFault (pcAfter i s) := by
  split
  · exact metFault_of_check_error (h.trans (rangeCheck_eq_error ‹_›))
  · exact metFault_of_check_ok hi (h.trans (rangeCheck_eq_ok (Nat.succ_le_succ (Nat.le_of_not_lt ‹_›))))

theorem metFault_call {s : State} (hs : s.Inv) (nnn : Addr) : metFault (.call nnn) s = firstFault (.call nnn) s := by
  have hle := hs.pc_le
  have heven := hs.pcEven
  simp only [firstFault]
  split_ifs with hfull hlast
  · exact metFault_of_check_error (check_call_of_full hfull)
  · exact metFault_of_check_error (check_call_of_last_pc hfull hlast)
  · exact metFault_of_check_ok (i := .call nnn) rfl (check_call_eq_ok_iff.mpr ⟨hfull, by omega⟩)

/-- In a good state the entry that RET goes to is a place of an instruction. -/
theorem metFault_ret {s : State} (hs : s.Inv) : metFault .ret s = firstFault .ret s := by
  simp only [firstFault]
  split_ifs with hempty
  · exact metFault_of_check_error (check_ret_of_empty hempty)
  · have heven : pcAfter .ret s % 2 = 0 := hs.stackEven _
    exact (metFault_of_check_ok (i := .ret) rfl (check_ret_eq_ok hempty)).trans
      (pcFault_of_even heven (toNat_le_of_even heven))

theorem metFault_drw (x y : Reg) (n : Fin 16) (s : State) : metFault (.drw x y n) s = firstFault (.drw x y n) s := by
  simp only [firstFault]
  split_ifs with hrows hbox
  · obtain ⟨hn, hrows⟩ := hrows
    exact metFault_of_check_error (check_drw_of_rows_outside hn hrows)
  · refine metFault_of_check_error (check_drw_of_box_outside (by omega) ?_)
    unfold BoxInside
    omega
  · refine metFault_of_check_ok (i := .drw x y n) rfl (check_drw_eq_ok (by omega) ?_)
    unfold BoxInside
    omega

/-- The table of R218 is what the model's checks and write of `pc` give, row by row. -/
theorem metFault_eq_firstFault {s : State} (hs : s.Inv) (i : Instr) : metFault i s = firstFault i s := by
  cases i with
  | ret => exact metFault_ret hs
  | call nnn => exact metFault_call hs nnn
  | skp x | sknp x => exact metFault_of_keyIndex rfl rfl
  | ldB x | stRegs x | ldRegs x => exact metFault_of_rangeCheck rfl rfl
  | drw x y n => exact metFault_drw x y n s
  | _ => rfl

/-- Settles O16: the fault met is the fault listed. -/
theorem faultsAreExactlyTheListedOnes : Obligations.FaultsAreExactlyTheListedOnes := by
  intro i s hs
  rw [← metFault_eq_firstFault hs i]
  exact exec_of_metFault i s

/-! ## RET (41_control_flow.md R121) -/

theorem encodedAs_ret : EncodedAs 0x00EE 0xFFFF (fun _ => .ret) :=
  .of_mem_catalog (t := ⟨"RET", 0x00EE, 0xFFFF, .none, fun _ => .ret⟩) (by simp [catalog, catalogFirst]) fun _ => rfl

/-- In a good state RET underflows or completes, by its row of R218. -/
theorem exec_ret_ne_pcRange {s : State} (hs : s.Inv) (v : Nat) : exec .ret s ≠ .fault (.pcRange v) := by
  obtain ⟨hfault, hnext⟩ := faultsAreExactlyTheListedOnes .ret s hs
  by_cases hempty : s.sp.val = 0
  · rw [hfault .stackUnderflow (if_pos hempty)]
    nofun
  · obtain ⟨t, ht⟩ := hnext (if_neg hempty)
    rw [ht]
    nofun

/-- Settles O22: the underflow of the empty stack, the pop, and the entries of a good state's stack, which are even. -/
theorem retPopsTheReturnAddress : Obligations.RetPopsTheReturnAddress :=
  ⟨encodedAs_ret, fun _ => ⟨fun hempty => exec_eq_fault_of_check_error (check_ret_of_empty hempty),
    fun _ => completes_ret, exec_ret_ne_pcRange⟩⟩

end Sys2Proof.Meaning
end

section
/-! Input, timers and termination: SKP, SKNP, LD_K, LD_VX_DT, LD_DT, LD_ST (48_input_timers.md R190 to R197), NOP, HALT,
UNKNOWN (49_termination.md R205 to R207). -/

namespace Sys2Proof.Meaning

open Sys2Proof.Machine Sys2Proof.Claim

/-! ## Encodings -/

theorem encodedAs_skp : EncodedAs 0xE09E 0xF0FF (fun w => .skp (xOf w)) :=
  encodedAs_of_x_mem_catalog (name := "SKP") (by simp [catalog, catalogSecond])

theorem encodedAs_sknp : EncodedAs 0xE0A1 0xF0FF (fun w => .sknp (xOf w)) :=
  encodedAs_of_x_mem_catalog (name := "SKNP") (by simp [catalog, catalogSecond])

theorem encodedAs_ldK : EncodedAs 0xF00A 0xF0FF (fun w => .ldK (xOf w)) :=
  encodedAs_of_x_mem_catalog (name := "LD_K") (by simp [catalog, catalogSecond])

theorem encodedAs_ldVxDt : EncodedAs 0xF007 0xF0FF (fun w => .ldVxDt (xOf w)) :=
  encodedAs_of_x_mem_catalog (name := "LD_VX_DT") (by simp [catalog, catalogSecond])

theorem encodedAs_ldDt : EncodedAs 0xF015 0xF0FF (fun w => .ldDt (xOf w)) :=
  encodedAs_of_x_mem_catalog (name := "LD_DT") (by simp [catalog, catalogSecond])

theorem encodedAs_ldSt : EncodedAs 0xF018 0xF0FF (fun w => .ldSt (xOf w)) :=
  encodedAs_of_x_mem_catalog (name := "LD_ST") (by simp [catalog, catalogSecond])

theorem encodedAs_nop : EncodedAs 0x0000 0xFFFF (fun _ => .nop) :=
  .of_mem_catalog (t := ⟨"NOP", 0x0000, 0xFFFF, .none, fun _ => .nop⟩)
    (by simp [catalog, catalogFirst, Config.nopWord]) fun _ => rfl

theorem encodedAs_halt : EncodedAs 0xFFFF 0xFFFF (fun _ => .halt) :=
  .of_mem_catalog (t := ⟨"HALT", 0xFFFF, 0xFFFF, .none, fun _ => .halt⟩)
    (by simp [catalog, catalogFirst, Config.haltMask]) fun _ => rfl

/-! ## Skips on a key -/

/-- A skip on the key that `V[x]` names: the fault of its index, and then a skip by a condition. -/
theorem keyRange_or_skipsWhen {i : Instr} {s : State} {x : Reg} {cond : Prop} [Decidable cond]
    (hpc : s.pc.toNat % 2 = 0) (hi : stops i = false) (hcheck : check i s = (keyIndex (s.readV x)).map fun _ => ())
    (hchange : ∀ p, mayChange i s p → p = .pc)
    (hafter : pcAfter i s = s.pc.toNat + if cond then 4 else 2) :
    (15 < (s.readV x).toNat → exec i s = .fault (.keyRange (s.readV x).toNat)) ∧
      ((s.readV x).toNat ≤ 15 → SkipsWhen i s cond) := by
  refine ⟨fun habove => ?_, fun hle => ?_⟩
  · exact exec_eq_fault_of_check_error (hcheck.trans (keyIndex_map_of_above habove))
  · exact skipsWhen_of_check hpc hi (hcheck.trans (keyIndex_map_eq_ok hle)) hchange hafter

/-- The target of a skip on a key that is up, as the table of R103 has it, by the condition of the skip. -/
theorem skip_target_of_key_up (down : Bool) (k : Nat) :
    (k + if down = true then 2 else 4) = k + if down = false then 4 else 2 := by
  cases down <;> rfl

/-- Settles O43: SKP checks the index of its key and skips when the key is down. -/
theorem skipIfKeyDown : Obligations.SkipIfKeyDown :=
  ⟨encodedAs_skp, fun _ _ hpc => keyRange_or_skipsWhen hpc rfl rfl (fun _ => id) rfl⟩

/-- Settles O44: SKNP checks the index of its key and skips when the key is up. -/
theorem skipIfKeyUp : Obligations.SkipIfKeyUp :=
  ⟨encodedAs_sknp, fun _ _ hpc =>
    keyRange_or_skipsWhen hpc rfl rfl (fun _ => id) (skip_target_of_key_up _ _)⟩

/-! ## The key-wait and the timers -/

/-- Settles O45: LD_K checks nothing, whatever keys are held, and names its target. -/
theorem keyWaitBlocks : Obligations.KeyWaitBlocks :=
  ⟨encodedAs_ldK, fun _ => plainEffect_of_check rfl (fun _ => rfl) (fun _ => rfl) (fun _ _ => ⟨rfl, rfl⟩)
    fun _ _ => id⟩

/-- Settles O46: one write of a register from `DT`, and one of each timer from a register. -/
theorem timerRegistersMove : Obligations.TimerRegistersMove := by
  refine ⟨encodedAs_ldVxDt, encodedAs_ldDt, encodedAs_ldSt, fun x => ⟨?_, ?_, ?_⟩⟩
  · exact plainEffect_of_writeV rfl (fun _ => rfl) (fun _ => rfl) (fun _ => rfl) (fun _ _ => id)
      fun _ _ hread => hread
  · exact plainEffect_of_check rfl (fun _ => rfl) (fun _ => rfl) (fun _ _ => rfl) fun _ _ => id
  · exact plainEffect_of_check rfl (fun _ => rfl) (fun _ => rfl) (fun _ _ => rfl) fun _ _ => id

/-! ## Termination -/

/-- HALT and UNKNOWN complete with their flag set, at every `pc`, and change nothing else. -/
theorem exec_and_frame_of_stops {i : Instr} {s : State} (hi : stops i = true) (hcheck : check i s = .ok ()) :
    exec i s = .next (effect i s) ∧ Frame s (effect i s) (mayChange i s) := by
  refine ⟨?_, effect_frame hcheck⟩
  rw [exec_eq, hcheck, orRaise_ok, finish_of_stops hi]

/-- Settles O47: NOP has no effect but its advance; HALT writes its flag and no `pc`. -/
theorem nopAdvancesAndHaltStops : Obligations.NopAdvancesAndHaltStops := by
  refine ⟨encodedAs_nop, encodedAs_halt, ?_, fun s => ?_⟩
  · exact plainEffect_of_check rfl (fun _ => rfl) (fun _ => rfl) (fun _ _ => trivial) fun _ _ => .inl
  · obtain ⟨hexec, hframe⟩ := exec_and_frame_of_stops (i := .halt) (s := s) rfl rfl
    exact ⟨_, hexec, rfl, hframe⟩

/-- Settles O48: a word that no template accepts decodes to UNKNOWN, which writes its flag and no `pc`. -/
theorem unknownWordQuits : Obligations.UnknownWordQuits := by
  refine ⟨fun _ => decode_of_none, fun w s => ?_⟩
  obtain ⟨hexec, hframe⟩ := exec_and_frame_of_stops (i := .unknown w) (s := s) rfl rfl
  exact ⟨_, hexec, rfl, hframe⟩

end Sys2Proof.Meaning
end

section
/-! Dead and terminal machines and the load window (60_exceptions.md R215, R217, R222; 70_reset_and_hazards.md R256):
each is a fact that every event but Reset keeps, and so holds after any sequence of them. -/

namespace Sys2Proof.Machine

open Sys2Proof.Claim

/-- What holds of a state and is kept by every event but Reset holds after any sequence without Reset. -/
theorem run_induction {P : State → Prop} {s : State} (hs : P s)
    (hstep : ∀ (e : Event) (t : State), e ≠ .reset → P t → P (e.after t)) {es : List Event} (hes : Event.reset ∉ es) :
    P (Event.run es s) :=
  List.foldlRecOn (motive := P) es _ hs fun t ht e he => hstep e t (ne_of_mem_of_not_mem he hes) ht

/-! ## Dead machines -/

/-- R217: no event but Reset has an effect on a dead machine. -/
theorem after_of_fault {s : State} (h : s.fault ≠ none) {e : Event} (he : e ≠ .reset) : e.after s = s := by
  cases e with
  | reset => exact absurd rfl he
  | load bytes => exact congrArg (settle s) (load_of_fault h bytes)
  | cycle => exact congrArg (settle s) (step_of_fault h)
  | setKeys | resolveKey | timerTick | clearDraw => exact whenLive_of_fault h _

theorem run_of_fault {s : State} (h : s.fault ≠ none) {es : List Event} (hes : Event.reset ∉ es) :
    Event.run es s = s :=
  run_induction (P := (· = s)) rfl
    (fun e t he ht => by
      rw [ht]
      exact after_of_fault h he) hes

/-- R215: a Cycle that faults leaves the state as it was with the fault recorded. -/
theorem after_cycle_of_step_fault {s : State} {f : Fault} (h : step s = .fault f) :
    Event.after .cycle s = s.withFault (some f) :=
  congrArg (settle s) h

/-- Settles O50: a dead machine is left as it is by each event, and so by all; the Cycle that faults writes the record
alone. -/
theorem deadMachineNeverChanges : Obligations.DeadMachineNeverChanges := by
  refine ⟨fun s h => ⟨step_of_fault h, fun _ => run_of_fault h⟩, fun s f h => ?_⟩
  rw [after_cycle_of_step_fault h]
  exact ⟨rfl, (Frame.refl s fun p => p = .faultRecord).withFault rfl _⟩

/-! ## Terminal machines -/

/-- The machine takes no Cycle until a Reset: a terminal flag is set, or a fault is recorded. -/
def Stopped (s : State) : Prop := s.fault ≠ none ∨ s.quit = true ∨ s.halted = true

theorem step_of_stopped {s : State} (h : Stopped s) : ∃ q, step s = .refused q := by
  by_cases hfault : s.fault = none
  · exact ⟨_, step_of_terminal ⟨hfault, h.resolve_left (not_not_intro hfault)⟩⟩
  · exact ⟨_, step_of_fault hfault⟩

theorem after_cycle_of_stopped {s : State} (h : Stopped s) : Event.after .cycle s = s := by
  obtain ⟨q, hq⟩ := step_of_stopped h
  exact congrArg (settle s) hq

/-- No event but Reset and Cycle writes a terminal flag. -/
theorem not_eventMayChange_flag {e : Event} (hreset : e ≠ .reset) (hcycle : e ≠ .cycle) (s : State) :
    ¬ eventMayChange e s .quit ∧ ¬ eventMayChange e s .halted := by
  cases e with
  | reset => exact absurd rfl hreset
  | cycle => exact absurd rfl hcycle
  | _ => simp [eventMayChange, loadMayChange]

theorem after_flags {e : Event} (hreset : e ≠ .reset) (hcycle : e ≠ .cycle) (s : State) :
    (e.after s).quit = s.quit ∧ (e.after s).halted = s.halted := by
  obtain ⟨hquit, hhalted⟩ := not_eventMayChange_flag hreset hcycle s
  exact ⟨after_frame e s .quit hquit, after_frame e s .halted hhalted⟩

theorem stopped_after {e : Event} {s : State} (he : e ≠ .reset) (h : Stopped s) : Stopped (e.after s) := by
  by_cases hcycle : e = .cycle
  · rwa [hcycle, after_cycle_of_stopped h]
  · obtain hfault | hflag := h
    · rw [after_of_fault hfault he]
      exact .inl hfault
    · obtain ⟨hquit, hhalted⟩ := after_flags he hcycle s
      exact .inr (by rwa [hquit, hhalted])

/-- Settles O49: every event but Reset leaves the machine stopped, by its flag or by the fault of a Load. -/
theorem terminalMachineNeverRunsAgain : Obligations.TerminalMachineNeverRunsAgain := by
  intro s hs
  have hstopped : Stopped s := .inr hs.2
  exact ⟨step_of_terminal hs, after_cycle_of_stopped hstopped, fun es hes =>
    step_of_stopped (run_induction hstopped (fun _ _ => stopped_after) hes)⟩

/-! ## The load window -/

/-- A Load that is not enabled leaves the state, on a dead machine too. -/
theorem after_load_of_not_enabled {s : State} (h : s.loadEnabled = false) (bytes : List Byte) :
    Event.after (.load bytes) s = s := by
  by_cases hfault : s.fault = none
  · exact congrArg (settle s) (load_of_not_enabled hfault h bytes)
  · exact after_of_fault hfault nofun

/-- A header changes the geometry alone, so a Load that completes leaves the window closed. -/
theorem loaded_loadEnabled (bytes : List Byte) (s : State) : (loaded bytes s).loadEnabled = false :=
  loaded_rec (P := (·.loadEnabled = false)) rfl fun _ _ => rfl

theorem not_mayChange_loadWindow (i : Instr) (s : State) : ¬ mayChange i s .loadWindow := by
  cases i <;> simp [mayChange, InBox]

/-- A Cycle that runs leaves the window closed: it closes it, and no instruction opens it. -/
theorem loadEnabled_of_exec {i : Instr} {s t : State} (h : exec i (closeLoad s) = .next t) :
    t.loadEnabled = false :=
  Meaning.everyInstructionChangesOnlyWhatItNames i (closeLoad s) t h .loadWindow (not_mayChange_loadWindow i _)

theorem loadEnabled_after_cycle {s : State} (h : s.loadEnabled = false) :
    (Event.after .cycle s).loadEnabled = false := by
  refine settle_rec (P := (·.loadEnabled = false)) (fun t ht => ?_) (fun _ _ => h) h
  obtain ⟨-, rfl⟩ | ⟨-, w, -, hexec⟩ := step_eq_next ht
  · exact h
  · exact loadEnabled_of_exec hexec

theorem loadEnabled_after {e : Event} {s : State} (he : e ≠ .reset) (h : s.loadEnabled = false) :
    (e.after s).loadEnabled = false := by
  cases e with
  | reset => exact absurd rfl he
  | load bytes => rwa [after_load_of_not_enabled h]
  | cycle => exact loadEnabled_after_cycle h
  | _ => exact (after_frame _ s .loadWindow (by simp [eventMayChange])).trans h

/-- Settles O58: the window that the Load or the Cycle closed stays closed under every event but Reset. -/
theorem loadComesOnce : Obligations.LoadComesOnce := by
  intro s t hfault hclose es bytes hes
  have hclosed : t.loadEnabled = false := by
    obtain ⟨image, hload⟩ | ⟨hrun, hstep⟩ := hclose
    · obtain ⟨hdead, -⟩ | ⟨-, rfl⟩ := load_eq_next hload
      · exact absurd hfault hdead
      · exact loaded_loadEnabled image s
    · obtain ⟨hwait, -⟩ | ⟨-, w, -, hexec⟩ := step_eq_next hstep
      · exact absurd (hrun.notBlocked.symm.trans hwait.blocked) Bool.false_ne_true
      · exact loadEnabled_of_exec hexec
  exact after_load_of_not_enabled
    (run_induction (P := (·.loadEnabled = false)) hclosed (fun _ _ => loadEnabled_after) hes) bytes

end Sys2Proof.Machine
end

section
/-! The host's events on a live machine: SetKeys, ClearDraw, TimerTick, ResolveKey (60_exceptions.md R235 to R238,
48_input_timers.md R193), and the image and the header of a Load (70_reset_and_hazards.md R257 to R259). -/

namespace Sys2Proof.Machine

open Sys2Proof.Claim

/-! ## Keys, `draw` and timers -/

theorem after_setKeys {s : State} (h : s.fault = none) (ks : Vector Bool 16) :
    Event.after (.setKeys ks) s = s.withKeys ks := whenLive_of_live h _

theorem after_clearDraw {s : State} (h : s.fault = none) : Event.after .clearDraw s = s.withDraw false :=
  whenLive_of_live h _

theorem after_timerTick {s : State} (h : s.fault = none) :
    Event.after .timerTick s = (s.withDT (countDown s.DT)).withST (countDown s.ST) := whenLive_of_live h _

theorem keyDown_withKeys (s : State) (ks : Vector Bool 16) (k : Fin 16) :
    (s.withKeys ks).keyDown k.val = ks[k.val] := by
  simp [State.keyDown]

/-- R32: no Cycle clears `draw`, since no instruction does. -/
theorem draw_after_cycle {s : State} (h : s.draw = true) : (Event.after .cycle s).draw = true := by
  refine settle_rec (P := (·.draw = true)) (fun t ht => ?_) (fun _ _ => h) h
  obtain ⟨-, rfl⟩ | ⟨-, w, -, hexec⟩ := step_eq_next ht
  · exact h
  · obtain ⟨hkeep, -⟩ := Meaning.onlyClsAndDrwWritePixels _ _ _ hexec
    exact hkeep h

/-- R237: one less, or still zero. -/
theorem toNat_countDown (b : Byte) : (countDown b).toNat = b.toNat - 1 := by
  unfold countDown
  split
  · exact BitVec.toNat_sub_of_le (BitVec.le_def.mpr ‹_›)
  · omega

/-- Settles O52: the two events write their own places, and no instruction clears `draw`. -/
theorem setKeysAndClearDraw : Obligations.SetKeysAndClearDraw := by
  refine fun s ks h => ⟨fun k => ?_, after_frame (.setKeys ks) s, ?_, after_frame .clearDraw s, draw_after_cycle⟩
  · rw [after_setKeys h, keyDown_withKeys]
  · rw [after_clearDraw h]
    rfl

/-- Settles O53: each timer counts down as a number of its own. -/
theorem timerTickCountsDown : Obligations.TimerTickCountsDown := by
  refine fun s h => ⟨?_, ?_, after_frame .timerTick s⟩
  · rw [after_timerTick h]
    exact toNat_countDown s.DT
  · rw [after_timerTick h]
    exact toNat_countDown s.ST

/-! ## The key-wait resolved -/

/-- KEY_PICK takes the lowest held key. -/
theorem pickKey_of_lowest {p : Config.KeyPick} {s : State} {k : Fin 16} (hk : s.keyDown k.val = true)
    (hlow : ∀ j : Fin 16, j < k → s.keyDown j.val = false) : pickKey p s = some k := by
  cases hp : pickKey p s with
  | none => exact absurd (hk.symm.trans (pickKey_eq_none.mp hp k)) Bool.noConfusion
  | some j =>
    obtain ⟨hj, hlow'⟩ := pickKey_eq_some hp
    obtain hlt | rfl | hlt := lt_trichotomy j k
    · exact absurd (hj.symm.trans (hlow j hlt)) Bool.noConfusion
    · rfl
    · exact absurd (hk.symm.trans (hlow' k hlt)) Bool.noConfusion

theorem after_resolveKey_of_not_blocking {s : State} (hfault : s.fault = none) (h : s.blocking = false) :
    Event.after .resolveKey s = s := by
  refine (whenLive_of_live hfault _).trans ?_
  simp only [h, Bool.false_eq_true, if_false]

theorem after_resolveKey_of_no_key {s : State} (hfault : s.fault = none) (h : ∀ k : Fin 16, s.keyDown k.val = false) :
    Event.after .resolveKey s = s := by
  refine (whenLive_of_live hfault _).trans ?_
  simp only [pickKey_eq_none.mpr h, ite_self]

theorem after_resolveKey_of_lowest {s : State} (hfault : s.fault = none) (hblocking : s.blocking = true) {k : Fin 16}
    (hk : s.keyDown k.val = true) (hlow : ∀ j : Fin 16, j < k → s.keyDown j.val = false) :
    Event.after .resolveKey s = completeWait k s := by
  refine (whenLive_of_live hfault _).trans ?_
  simp only [hblocking, if_true, pickKey_of_lowest hk hlow]

/-- The number of a key fits in a byte. -/
theorem toNat_readV_completeWait (k : Fin 16) (s : State) :
    ((completeWait k s).readV s.blockTarget).toNat = k.val := by
  have hread : (completeWait k s).readV s.blockTarget = BitVec.ofNat 8 k.val := readV_writeV_same s _ _
  rw [hread, BitVec.toNat_ofNat]
  omega

/-- Settles O54: with the lowest held key picked, ResolveKey is the completion of the wait by it. -/
theorem resolveKeyTakesTheLowestHeldKey : Obligations.ResolveKeyTakesTheLowestHeldKey := by
  refine fun s hfault => ⟨after_resolveKey_of_not_blocking hfault, after_resolveKey_of_no_key hfault,
    fun k hblocking hk hlow => ?_⟩
  rw [after_resolveKey_of_lowest hfault hblocking hk hlow]
  exact ⟨toNat_readV_completeWait k s, rfl, completeWait_frame k s⟩

/-- A report of the keys and the resolution of the wait, on a waiting live machine: the lowest key goes to the target,
and `pc` stays. The keys are any vector here, so that the checks by `rfl` do not compute with them. -/
theorem run_setKeys_resolveKey {s : State} (hfault : s.fault = none) (hblocking : s.blocking = true)
    {ks : Vector Bool 16} {k : Fin 16} (hk : ks[k.val] = true) (hlow : ∀ j : Fin 16, j < k → ks[j.val] = false) :
    ((Event.run [.setKeys ks, .resolveKey] s).readV s.blockTarget).toNat = k.val ∧
      (Event.run [.setKeys ks, .resolveKey] s).blocking = false ∧
      (Event.run [.setKeys ks, .resolveKey] s).pc = s.pc := by
  rw [Event.run, List.foldl_cons, List.foldl_cons, List.foldl_nil, after_setKeys hfault,
    after_resolveKey_of_lowest (s := s.withKeys ks) hfault hblocking ((keyDown_withKeys s ks k).trans hk)
      fun j hj => (keyDown_withKeys s ks j).trans (hlow j hj)]
  exact ⟨toNat_readV_completeWait k (s.withKeys ks), rfl, rfl⟩

theorem getElem_onlyKey (k j : Fin 16) : (onlyKey k)[j.val] = decide (j = k) := by
  simp [onlyKey]

/-- Settles O55: LD_K completes by O45 on a machine that stays live, and the two events then complete the wait. -/
theorem keyWaitCompletesWithoutMovingPc : Obligations.KeyWaitCompletesWithoutMovingPc := by
  intro x k s hfault heven hpc
  obtain ⟨-, hplain⟩ := Meaning.keyWaitBlocks
  obtain ⟨hcompletes, -⟩ := hplain x s heven
  obtain ⟨t, hexec, htpc, ⟨hblocking, rfl⟩, hframe⟩ := hcompletes hpc
  have htfault : t.fault = none := (hframe .faultRecord (by simp)).trans hfault
  have hk : (onlyKey k)[k.val] = true := by simp [getElem_onlyKey]
  have hlow (j : Fin 16) (hj : j < k) : (onlyKey k)[j.val] = false := by simp [getElem_onlyKey, hj.ne]
  obtain ⟨hread, hresolved, hupc⟩ := run_setKeys_resolveKey htfault hblocking hk hlow
  refine ⟨t, hexec, ?_⟩
  rintro _ rfl
  exact ⟨hread, hresolved, hupc ▸ htpc⟩

/-! ## The image and the header of a Load -/

/-- A header leaves the memory. -/
theorem loaded_mem (bytes : List Byte) (s : State) :
    (loaded bytes s).mem = s.mem.writeBytes Config.entry bytes :=
  loaded_rec (P := (·.mem = s.mem.writeBytes Config.entry bytes)) rfl fun _ _ => rfl

/-- Settles O56: the image that fits is one run of bytes from ENTRY on. -/
theorem loadCopiesTheImage : Obligations.LoadCopiesTheImage := by
  refine fun bytes s hfault hen hm => ⟨load_of_too_long hfault hen, fun hfit => ?_⟩
  refine ⟨_, load_of_fits hfault hen hfit, fun k hk => ?_, loaded_frame bytes s⟩
  rw [loaded_mem, Memory.read_writeBytes_inside hm hfit hk 0]

/-- The two geometry registers are distinct (D26), so each holds its own byte. -/
theorem readV_resize_geometry (width height : Byte) (s : State) :
    (resize width height s).readV Config.geomRegW = width ∧
      (resize width height s).readV Config.geomRegH = height := by
  have hne : Config.geomRegW ≠ Config.geomRegH := Config.geomRegs.distinct
  refine ⟨?_, readV_writeV_same _ _ _⟩
  rw [resize, readV_writeV_ne _ _ hne, readV_writeV_same]

/-- Settles O57: a header resizes, and without one the image alone is written. -/
theorem loadAppliesTheHeader : Obligations.LoadAppliesTheHeader := by
  intro bytes s t h hfault hload hh
  obtain rfl : h = trailingByte bytes := funext hh
  obtain ⟨hdead, -⟩ | ⟨-, rfl⟩ := load_eq_next hload
  · exact absurd hfault hdead
  · refine ⟨fun hheader => ?_, fun hheader => ?_⟩
    · rw [loaded, applyHeader_of_hasHeader hheader]
      exact ⟨rfl, rfl, Pixels.get_clear, readV_resize_geometry _ _ _⟩
    · rw [loaded, applyHeader_of_not_hasHeader hheader]
      exact ⟨rfl, rfl, rfl, fun _ => rfl⟩

end Sys2Proof.Machine
end
